-- ==== Sys2Proof/Word.lean ====
section
/-!
DEFINITION. The word types of the CX-81 and the one table type in which the model keeps every sparse collection.
-/

namespace Sys2Proof

/-- A register of a cobble (R84). -/
abbrev W64 := BitVec 64

/-- A 32-bit register or instruction word (R91). -/
abbrev W32 := BitVec 32

/-- A byte of memory. -/
abbrev Byte := BitVec 8

/-- A sparse table: pairs of a key and a value, keys strictly rising. A key that is not listed holds the default
that the reader names. -/
abbrev Tbl (α : Type) := List (Nat × α)

end Sys2Proof
end

