-- ==== Sys2Proof/Operand.lean ====
section
/-!
DEFINITION. Operand types of commands that are more than a number or a bit vector.
-/

namespace Sys2Proof

/-- Who makes a register access that has no instruction of its own: a program's store that waits at the unit, or
firmware or boot code through the service ring (R28, R406). -/
inductive RegBy
  | program
  | firmware
deriving DecidableEq, Repr

end Sys2Proof
end

