-- ==== Sys2Proof/Syntax.lean ====
section
/-!
DEFINITION. The commands of the CX-81: one constructor per row of spec/opcode_table.json, in its order. Register fields
and immediates are the raw fields of the encoding (Tables 04-3, 04-14, 05-1, 08-2 and 10-1); unit numbers are those of Table 01-1.
-/

namespace Sys2Proof

inductive Instr
  /-- R93: Integer register add, wrapping modulo 2^64 or 2^32 in the word form. -/
  | add (c : Nat) (w : Bool) (rd rs1 rs2 : BitVec 6)
  /-- R93: Integer register subtract, wrapping. -/
  | sub (c : Nat) (w : Bool) (rd rs1 rs2 : BitVec 6)
  /-- R536: Bitwise AND of two registers. -/
  | and (c : Nat) (w : Bool) (rd rs1 rs2 : BitVec 6)
  /-- R536: Bitwise OR of two registers. -/
  | or (c : Nat) (w : Bool) (rd rs1 rs2 : BitVec 6)
  /-- R536: Bitwise XOR of two registers. -/
  | xor (c : Nat) (w : Bool) (rd rs1 rs2 : BitVec 6)
  /-- R93: Logical left shift by the low 6 (or 5) bits of rs2. -/
  | shll (c : Nat) (w : Bool) (rd rs1 rs2 : BitVec 6)
  /-- R93: Logical right shift. -/
  | shrl (c : Nat) (w : Bool) (rd rs1 rs2 : BitVec 6)
  /-- R93: Arithmetic right shift. -/
  | shra (c : Nat) (w : Bool) (rd rs1 rs2 : BitVec 6)
  /-- R93: Sets rd to 1 when rs1 is less than rs2, signed. -/
  | setlt (c : Nat) (w : Bool) (rd rs1 rs2 : BitVec 6)
  /-- R93: Sets rd to 1 when rs1 is less than rs2, unsigned. -/
  | setltu (c : Nat) (w : Bool) (rd rs1 rs2 : BitVec 6)
  /-- R93: Signed integer minimum. -/
  | min (c : Nat) (w : Bool) (rd rs1 rs2 : BitVec 6)
  /-- R93: Signed integer maximum. -/
  | max (c : Nat) (w : Bool) (rd rs1 rs2 : BitVec 6)
  /-- R93: Unsigned integer minimum. -/
  | minu (c : Nat) (w : Bool) (rd rs1 rs2 : BitVec 6)
  /-- R93: Unsigned integer maximum. -/
  | maxu (c : Nat) (w : Bool) (rd rs1 rs2 : BitVec 6)
  /-- R536: Adds a sign-extended 14-bit immediate to rs1. -/
  | addI (c : Nat) (rd rs1 : BitVec 6) (imm : BitVec 14)
  /-- R536: ANDs rs1 with a sign-extended immediate. -/
  | andI (c : Nat) (rd rs1 : BitVec 6) (imm : BitVec 14)
  /-- R536: ORs rs1 with a sign-extended immediate. -/
  | orI (c : Nat) (rd rs1 : BitVec 6) (imm : BitVec 14)
  /-- R536: XORs rs1 with a sign-extended immediate. -/
  | xorI (c : Nat) (rd rs1 : BitVec 6) (imm : BitVec 14)
  /-- R536: Logical left shift by imm[5:0]. -/
  | shllI (c : Nat) (rd rs1 : BitVec 6) (imm : BitVec 12)
  /-- R536: Logical right shift by imm[5:0]. -/
  | shrlI (c : Nat) (rd rs1 : BitVec 6) (imm : BitVec 12)
  /-- R536: Arithmetic right shift by imm[5:0]. -/
  | shraI (c : Nat) (rd rs1 : BitVec 6) (imm : BitVec 12)
  /-- R536: Signed compare of rs1 with the immediate. -/
  | setltI (c : Nat) (rd rs1 : BitVec 6) (imm : BitVec 14)
  /-- R536: Unsigned compare of rs1 with the sign-extended immediate. -/
  | setltuI (c : Nat) (rd rs1 : BitVec 6) (imm : BitVec 14)
  /-- R536: Loads imm20 shifted left 12, sign-extended, into rd. -/
  | ldhi (c : Nat) (rd : BitVec 6) (imm : BitVec 20)
  /-- R536: Writes own address plus imm20 shifted left 12 to rd. -/
  | pchi (c : Nat) (rd : BitVec 6) (imm : BitVec 20)
  /-- R93: Integer multiply, low bits of the product. -/
  | mul (c : Nat) (w : Bool) (rd rs1 rs2 : BitVec 6)
  /-- R93: High half of the signed product. -/
  | mulhs (c : Nat) (w : Bool) (rd rs1 rs2 : BitVec 6)
  /-- R93: High half of the unsigned product. -/
  | mulhu (c : Nat) (w : Bool) (rd rs1 rs2 : BitVec 6)
  /-- R93: Signed division rounding toward zero; zero divisor traps. -/
  | divs (c : Nat) (w : Bool) (rd rs1 rs2 : BitVec 6)
  /-- R93: Unsigned division; zero divisor traps. -/
  | divu (c : Nat) (w : Bool) (rd rs1 rs2 : BitVec 6)
  /-- R93: Signed remainder with the dividend's sign. -/
  | mods (c : Nat) (w : Bool) (rd rs1 rs2 : BitVec 6)
  /-- R93: Unsigned remainder. -/
  | modu (c : Nat) (w : Bool) (rd rs1 rs2 : BitVec 6)
  /-- R94: Loads a sign-extended byte from the tagged address. -/
  | ldB (c : Nat) (rd rs1 : BitVec 6) (imm : BitVec 12)
  /-- R94: Loads a zero-extended byte. -/
  | ldBu (c : Nat) (rd rs1 : BitVec 6) (imm : BitVec 12)
  /-- R94: Loads a sign-extended halfword. -/
  | ldH (c : Nat) (rd rs1 : BitVec 6) (imm : BitVec 12)
  /-- R94: Loads a zero-extended halfword. -/
  | ldHu (c : Nat) (rd rs1 : BitVec 6) (imm : BitVec 12)
  /-- R97: Loads a sign-extended word, forwarding from or draining the store buffer as needed. -/
  | ldW (c : Nat) (rd rs1 : BitVec 6) (imm : BitVec 12)
  /-- R94: Loads a zero-extended word. -/
  | ldWu (c : Nat) (rd rs1 : BitVec 6) (imm : BitVec 12)
  /-- R94: Loads a double-word. -/
  | ldD (c : Nat) (rd rs1 : BitVec 6) (imm : BitVec 12)
  /-- R84: Loads an FP32 value into an f register, upper bits set to ones. -/
  | fldS (c : Nat) (rd rs1 : BitVec 6) (imm : BitVec 12)
  /-- R94: Loads an FP64 value into an f register. -/
  | fldD (c : Nat) (rd rs1 : BitVec 6) (imm : BitVec 12)
  /-- R96: Stores a byte; private-scratchpad stores enter the store buffer, others are posted. -/
  | stB (c : Nat) (rs2 rs1 : BitVec 6) (imm : BitVec 12)
  /-- R96: Stores a halfword. -/
  | stH (c : Nat) (rs2 rs1 : BitVec 6) (imm : BitVec 12)
  /-- R96: Stores a word. -/
  | stW (c : Nat) (rs2 rs1 : BitVec 6) (imm : BitVec 12)
  /-- R96: Stores a double-word. -/
  | stD (c : Nat) (rs2 rs1 : BitVec 6) (imm : BitVec 12)
  /-- R96: Stores the FP32 bits of an f register. -/
  | fstS (c : Nat) (rs2 rs1 : BitVec 6) (imm : BitVec 12)
  /-- R96: Stores an FP64 f register. -/
  | fstD (c : Nat) (rs2 rs1 : BitVec 6) (imm : BitVec 12)
  /-- R99: Waits for a full word, reads it and leaves it full. -/
  | ldwf (c : Nat) (rd rs1 : BitVec 6) (imm : BitVec 12)
  /-- R99: Waits for a full word, reads it and sets it empty. -/
  | lde (c : Nat) (rd rs1 : BitVec 6) (imm : BitVec 12)
  /-- R99: Waits for an empty word, writes it and sets it full. -/
  | stwe (c : Nat) (rs2 rs1 : BitVec 6) (imm : BitVec 12)
  /-- R99: Writes a word and sets it full. -/
  | stf (c : Nat) (rs2 rs1 : BitVec 6) (imm : BitVec 12)
  /-- R99: Sets a word's FE bit empty without writing data. -/
  | purge (c : Nat) (rs2 rs1 : BitVec 6) (imm : BitVec 12)
  /-- R91: Branches when rs1 equals rs2. -/
  | brEq (c : Nat) (rs1 rs2 : BitVec 6) (off : BitVec 12)
  /-- R91: Branches when rs1 differs from rs2. -/
  | brNe (c : Nat) (rs1 rs2 : BitVec 6) (off : BitVec 12)
  /-- R91: Branches when rs1 is less than rs2, signed. -/
  | brLt (c : Nat) (rs1 rs2 : BitVec 6) (off : BitVec 12)
  /-- R91: Branches when rs1 is at least rs2, signed. -/
  | brGe (c : Nat) (rs1 rs2 : BitVec 6) (off : BitVec 12)
  /-- R91: Branches when rs1 is less than rs2, unsigned. -/
  | brLtu (c : Nat) (rs1 rs2 : BitVec 6) (off : BitVec 12)
  /-- R91: Branches when rs1 is at least rs2, unsigned. -/
  | brGeu (c : Nat) (rs1 rs2 : BitVec 6) (off : BitVec 12)
  /-- R91: Jumps PC-relative and writes the return address to q7 without a window move. -/
  | jlink (c : Nat) (off : BitVec 26)
  /-- R536: Jumps to rs1 plus imm and writes the return address to rd. -/
  | jlinkr (c : Nat) (rd rs1 : BitVec 6) (imm : BitVec 14)
  /-- R88: Opens a new window and transfers PC-relative, or raises WINDOW_OVERFLOW when HELD is 4. -/
  | wcall (c : Nat) (off : BitVec 26)
  /-- R88: Window call to rs1 plus imm. -/
  | wcallr (c : Nat) (rd rs1 : BitVec 6) (imm : BitVec 14)
  /-- R88: Returns to p7 and closes the window, or raises WINDOW_UNDERFLOW when HELD is 1. -/
  | wret (c : Nat) (fields : BitVec 26)
  /-- R108: Reads a cobble CSR into rd, clearing RC fields. -/
  | crd (c : Nat) (rd rs1 : BitVec 6) (csr : BitVec 12)
  /-- R108: Writes a cobble CSR, with W1C and RO rules and faults for unwritable CSRs. -/
  | cwr (c : Nat) (rd rs1 : BitVec 6) (csr : BitVec 12)
  /-- R108: Sets the named bits in the CSR's RW fields. -/
  | cset (c : Nat) (rd rs1 : BitVec 6) (csr : BitVec 12)
  /-- R108: Clears the named bits in the CSR's RW fields. -/
  | cclr (c : Nat) (rd rs1 : BitVec 6) (csr : BitVec 12)
  /-- R102: Holds issue until the store buffer is empty and earlier loads and posted stores are answered. -/
  | fence (c : Nat) (rs1 : BitVec 6) (imm : BitVec 14)
  /-- R107: Writes the phase number to PHASEID and the island's current phase. -/
  | phase (c : Nat) (rs1 : BitVec 6) (imm : BitVec 14)
  /-- R105: Holds issue until an enabled interrupt is pending. -/
  | wait (c : Nat) (rs1 : BitVec 6) (imm : BitVec 14)
  /-- R106: Drains outstanding work and ends the core's part of the context. -/
  | exit (c : Nat) (rs1 : BitVec 6) (imm : BitVec 14)
  /-- R103: Raises the SOFTWARE trap with imm in TRINFO. -/
  | trap (c : Nat) (rs1 : BitVec 6) (imm : BitVec 14)
  /-- R104: Raises BREAKPOINT, or halts for the debugger when debug is unlocked. -/
  | brk (c : Nat) (rs1 : BitVec 6) (imm : BitVec 14)
  /-- R103: Restores STATUS, leaves the trap window and resumes at TRPC plus 4n. -/
  | hret (c : Nat) (rs1 : BitVec 6) (imm : BitVec 14)
  /-- R537: IEEE addition in FP64 or FP32. -/
  | fadd (c : Nat) (rd rs1 rs2 : BitVec 6) (fmt : BitVec 2)
  /-- R537: IEEE subtraction. -/
  | fsub (c : Nat) (rd rs1 rs2 : BitVec 6) (fmt : BitVec 2)
  /-- R537: IEEE multiplication. -/
  | fmul (c : Nat) (rd rs1 rs2 : BitVec 6) (fmt : BitVec 2)
  /-- R537: IEEE division on the shared unpipelined unit. -/
  | fdiv (c : Nat) (rd rs1 rs2 : BitVec 6) (fmt : BitVec 2)
  /-- R537: IEEE square root on the shared unit. -/
  | fsqrt (c : Nat) (rd rs1 rs2 : BitVec 6) (fmt : BitVec 2)
  /-- R537: minimumNumber. -/
  | fmin (c : Nat) (rd rs1 rs2 : BitVec 6) (fmt : BitVec 2)
  /-- R537: maximumNumber. -/
  | fmax (c : Nat) (rd rs1 rs2 : BitVec 6) (fmt : BitVec 2)
  /-- R537: compareQuietEqual into an integer register. -/
  | fcmpEq (c : Nat) (rd rs1 rs2 : BitVec 6) (fmt : BitVec 2)
  /-- R537: compareSignalingLess into an integer register. -/
  | fcmpLt (c : Nat) (rd rs1 rs2 : BitVec 6) (fmt : BitVec 2)
  /-- R537: compareSignalingLessEqual into an integer register. -/
  | fcmpLe (c : Nat) (rd rs1 rs2 : BitVec 6) (fmt : BitVec 2)
  /-- R537: Writes a one-hot IEEE class word to rd. -/
  | fkind (c : Nat) (rd rs1 rs2 : BitVec 6) (fmt : BitVec 2)
  /-- R537: Copies bits between f and integer registers in the direction rs2 selects. -/
  | fmov (c : Nat) (rd rs1 rs2 : BitVec 6) (fmt : BitVec 2)
  /-- R537: Converts between FP64 and FP32. -/
  | fcvtF (c : Nat) (rd rs1 rs2 : BitVec 6) (fmt : BitVec 2)
  /-- R537: Converts a float to the integer type rs2 names. -/
  | fcvtFi (c : Nat) (rd rs1 rs2 : BitVec 6) (fmt : BitVec 2)
  /-- R537: Converts an integer register of the named type to float. -/
  | fcvtIf (c : Nat) (rd rs1 rs2 : BitVec 6) (fmt : BitVec 2)
  /-- R537: Rounds to an integral value by the operation rs2 selects. -/
  | frint (c : Nat) (rd rs1 rs2 : BitVec 6) (fmt : BitVec 2)
  /-- R92: Fused a × b + c with one rounding. -/
  | fma (c : Nat) (fd fs1 fs2 fs3 : BitVec 6) (fmt : BitVec 2)
  /-- R92: Fused a × b − c. -/
  | fms (c : Nat) (fd fs1 fs2 fs3 : BitVec 6) (fmt : BitVec 2)
  /-- R92: Fused −(a × b) + c. -/
  | fnma (c : Nat) (fd fs1 fs2 : BitVec 6) (fs3 : BitVec 5) (fmt : BitVec 2)
  /-- R92: Fused −(a × b) − c. -/
  | fnms (c : Nat) (fd fs1 fs2 : BitVec 6) (fs3 : BitVec 5) (fmt : BitVec 2)
  /-- R119: Loads 32 bytes from the private scratchpad into a vector register over two load-path steps. -/
  | vld (c : Nat) (v : BitVec 3) (rs1 : BitVec 6) (imm : BitVec 14)
  /-- R121: Waits for an empty store buffer and writes 32 bytes directly. -/
  | vst (c : Nat) (v : BitVec 3) (rs1 : BitVec 6) (imm : BitVec 14)
  /-- R117: Elementwise add on the lane unit. -/
  | vadd (c : Nat) (vd vs1 vs2 vs3 ty : BitVec 3) (fn : BitVec 7)
  /-- R117: Elementwise subtract. -/
  | vsub (c : Nat) (vd vs1 vs2 vs3 ty : BitVec 3) (fn : BitVec 7)
  /-- R117: Elementwise multiply. -/
  | vmul (c : Nat) (vd vs1 vs2 vs3 ty : BitVec 3) (fn : BitVec 7)
  /-- R117: Elementwise fused multiply-add. -/
  | vfma (c : Nat) (vd vs1 vs2 vs3 ty : BitVec 3) (fn : BitVec 7)
  /-- R117: Elementwise fused multiply-subtract. -/
  | vfms (c : Nat) (vd vs1 vs2 vs3 ty : BitVec 3) (fn : BitVec 7)
  /-- R117: Elementwise −(a × b) + c. -/
  | vfnma (c : Nat) (vd vs1 vs2 vs3 ty : BitVec 3) (fn : BitVec 7)
  /-- R117: Elementwise minimumNumber. -/
  | vmin (c : Nat) (vd vs1 vs2 vs3 ty : BitVec 3) (fn : BitVec 7)
  /-- R117: Elementwise maximumNumber. -/
  | vmax (c : Nat) (vd vs1 vs2 vs3 ty : BitVec 3) (fn : BitVec 7)
  /-- R117: Elementwise equality mask. -/
  | vcmpeq (c : Nat) (vd vs1 vs2 vs3 ty : BitVec 3) (fn : BitVec 7)
  /-- R117: Elementwise less-than mask. -/
  | vcmplt (c : Nat) (vd vs1 vs2 vs3 ty : BitVec 3) (fn : BitVec 7)
  /-- R117: Elementwise less-or-equal mask. -/
  | vcmple (c : Nat) (vd vs1 vs2 vs3 ty : BitVec 3) (fn : BitVec 7)
  /-- R117: Bitwise select of vs2 and vs3 by vs1. -/
  | vsel (c : Nat) (vd vs1 vs2 vs3 ty : BitVec 3) (fn : BitVec 7)
  /-- R123: Converts one part between formats, with optional SCALE and AMAX. -/
  | vcvt (c : Nat) (vd vs1 vs2 tyS ty : BitVec 3) (fn : BitVec 11)
  /-- R126: Complex multiply with one rounding per component. -/
  | vcmul (c : Nat) (vd vs1 vs2 vs3 ty : BitVec 3) (conj : Bool) (hi : BitVec 9)
  /-- R126: Complex fused multiply-add. -/
  | vcfma (c : Nat) (vd vs1 vs2 vs3 ty : BitVec 3) (conj : Bool) (hi : BitVec 9)
  /-- R128: Splits each element into three narrower pieces across two registers. -/
  | vsplit3 (c : Nat) (vd vs1 vs2 vs3 ty : BitVec 3) (fn : BitVec 11)
  /-- R122: Broadcasts the low bits of a register into every element. -/
  | vbcast (c : Nat) (vd vs1 : BitVec 3) (reg : BitVec 6) (ty : BitVec 3) (idx : BitVec 6) (fn : BitVec 3)
  /-- R122: Extracts one element into an f register. -/
  | vext (c : Nat) (vd vs1 : BitVec 3) (reg : BitVec 6) (ty : BitVec 3) (idx : BitVec 6) (fn : BitVec 3)
  /-- R122: Inserts the low bits of a register into one element. -/
  | vins (c : Nat) (vd vs1 : BitVec 3) (reg : BitVec 6) (ty : BitVec 3) (idx : BitVec 6) (fn : BitVec 3)
  /-- R132: Loads or zeroes the MAC block tile and sets TSTATE.ACC64. -/
  | tld (c : Nat) (va vb r1 r2 tyA tyB : BitVec 3) (fn : BitVec 8)
  /-- R133: Small-tile multiply-accumulate in the order of R72. -/
  | tmac (c : Nat) (va vb r1 r2 tyA tyB : BitVec 3) (fn : BitVec 8)
  /-- R132: Stores the MAC block tile to a register pair. -/
  | tst (c : Nat) (va vb r1 r2 tyA tyB : BitVec 3) (fn : BitVec 8)
  /-- R216: Holds issue until every earlier Piazza ISA instruction has completed its count. -/
  | pfence (c : Nat) (fields : BitVec 18)
  /-- R232: Matrix operation over K positions into the accumulators, reserving feed waves. -/
  | mma (c : Nat) (rk ra rb : BitVec 6) (tyA tyB : BitVec 3) (acc64 zero : Bool)
  /-- R232: Block-scaled matrix operation with scale fetches from kerb lane memory. -/
  | mmas (c : Nat) (rk ra rb : BitVec 6) (tyA tyB : BitVec 2) (sca scb zero res : Bool)
  /-- R243: Sets every accumulator position to +0. -/
  | accz (c : Nat) (r1 rs1 r2 : BitVec 6)
  /-- R243: Loads all accumulator positions from lane memory in eight waves. -/
  | accld (c : Nat) (r1 rs1 r2 : BitVec 6)
  /-- R243: Stores all accumulator positions to lane memory in eight waves. -/
  | accst (c : Nat) (r1 rs1 r2 : BitVec 6)
  /-- R231: Writes 64 bits of the row mask MROW. -/
  | mmroww (c : Nat) (rd rs1 rs2 : BitVec 6) (w : BitVec 2)
  /-- R231: Writes 64 bits of the column mask MCOL. -/
  | mmcolw (c : Nat) (rd rs1 rs2 : BitVec 6) (w : BitVec 2)
  /-- R231: Sets MROW to a range of rows. -/
  | mmrowr (c : Nat) (rd rs1 rs2 : BitVec 6)
  /-- R231: Sets MCOL to a range of columns. -/
  | mmcolr (c : Nat) (rd rs1 rs2 : BitVec 6)
  /-- R231: Sets the scale base lane address. -/
  | mscb (c : Nat) (rd rs1 rs2 : BitVec 6)
  /-- R250: Sets VLR and VLC. -/
  | vsetl (c : Nat) (rd rs1 rs2 : BitVec 6)
  /-- R261: Copies a 64-byte chain descriptor into a slot and marks it VALID or INVALID. -/
  | chld (c : Nat) (slot rs1 rs2 : BitVec 6)
  /-- R256: Loads a band of tile rows from the piazza store in one wave. -/
  | tldp (c : Nat) (t : BitVec 5) (rs1 rs2 : BitVec 6) (ty band : BitVec 3) (cb : Bool)
  /-- R256: Stores a band of tile rows to the piazza store in one wave. -/
  | tstp (c : Nat) (t : BitVec 5) (rs1 rs2 : BitVec 6) (ty band : BitVec 3) (cb : Bool)
  /-- R258: Loads one word per lane from lane memory, optionally indexed. -/
  | tldl (c : Nat) (t : BitVec 5) (rs1 : BitVec 6) (ix : Bool) (ti : BitVec 5) (ty band : BitVec 3) (cb : Bool)
  /-- R258: Stores one word per lane to lane memory. -/
  | tstl (c : Nat) (t : BitVec 5) (rs1 : BitVec 6) (ix : Bool) (ti : BitVec 5) (ty band : BitVec 3) (cb : Bool)
  /-- R265: One-stage tile operation on Ta and Tb into Td. -/
  | top (c : Nat) (td ta tb op : BitVec 5) (ty : BitVec 3) (bb : BitVec 2) (r : Bool)
  /-- R264: Runs the stages of a chain slot in every lane and writes results at the end of the count. -/
  | chain (c : Nat) (slot : BitVec 4) (r : BitVec 20)
  /-- R269: Narrows r tiles into a block-scaled tile with AUTO or EXPLICIT scales. -/
  | tcvtbn (c : Nat) (td ts tsc : BitVec 5) (wide : BitVec 3) (narrow : BitVec 2) (auto amx : Bool) (idx : BitVec 2)
  /-- R269: Widens a block-scaled tile into r tiles. -/
  | tcvtbw (c : Nat) (td ts tsc : BitVec 5) (wide : BitVec 3) (narrow : BitVec 2) (auto amx : Bool) (idx : BitVec 2)
  /-- R271: Splits every active element into three piece tiles. -/
  | tsplit3 (c : Nat) (td ts r1 : BitVec 5) (ty : BitVec 3) (part : Bool) (r2 : BitVec 5)
  /-- R272: Packs selected elements and writes the count to rd. -/
  | tcmpr (c : Nat) (td ts tm : BitVec 5) (rd : BitVec 6) (ty : BitVec 3)
  /-- R273: Expands packed elements into selected positions. -/
  | texpd (c : Nat) (td ts tm : BitVec 5) (rd : BitVec 6) (ty : BitVec 3)
  /-- R275: Tree reduction of each row into column 0. -/
  | rowReduce (c : Nat) (td ts tm : BitVec 5) (ty : BitVec 3) (op : BitVec 2) (seg excl r : Bool)
  /-- R275: Tree reduction of each column into row 0. -/
  | columnReduce (c : Nat) (td ts tm : BitVec 5) (ty : BitVec 3) (op : BitVec 2) (seg excl r : Bool)
  /-- R275: Row then column reduction into element (0,0). -/
  | fullTileReduce (c : Nat) (td ts tm : BitVec 5) (ty : BitVec 3) (op : BitVec 2) (seg excl r : Bool)
  /-- R276: Inclusive, exclusive or segmented scan along rows. -/
  | rowScan (c : Nat) (td ts tm : BitVec 5) (ty : BitVec 3) (op : BitVec 2) (seg excl r : Bool)
  /-- R276: Scan along columns. -/
  | columnScan (c : Nat) (td ts tm : BitVec 5) (ty : BitVec 3) (op : BitVec 2) (seg excl r : Bool)
  /-- R279: Moves one tile element to a scalar register. -/
  | tmvx (c : Nat) (reg rs1 : BitVec 6) (t : BitVec 5) (ty : BitVec 3) (f : Bool) (r : BitVec 3)
  /-- R279: Writes a scalar register into one tile element. -/
  | tmvi (c : Nat) (reg rs1 : BitVec 6) (t : BitVec 5) (ty : BitVec 3) (f : Bool) (r : BitVec 3)
  /-- R278: Writes a mask tile from lane flags and optionally clears them. -/
  | tflg (c : Nat) (reg rs1 : BitVec 6) (t : BitVec 5) (ty : BitVec 3) (f : Bool) (r : BitVec 3)
  /-- R101: An FE wait reaches FEWAIT ticks and traps with the word unchanged. -/
  | feTimeout (c : Nat)
  /-- R104: An enabled pending interrupt is taken at an instruction boundary, abandoning any FE wait. -/
  | interruptEntry (c : Nat)
  /-- R538: A failed block-store or global load traps at the first boundary the trap window allows. -/
  | deferredTrap (c : Nat)
  /-- R104: The PKTIME shadow reaches TIMECMP and IPEND.TIMER becomes 1. -/
  | timerInterrupt (c : Nat)
  /-- R96: The oldest store-buffer entry is written in a step with a free load path. -/
  | storeBufferWrite (c : Nat)
  /-- R145: A bank serves the oldest queued request, testing FE and returning data or acceptance 4 steps later. -/
  | blockStoreBankService (b bank : Nat)
  /-- R95: The answer to a global or block-store load reaches the cobble. -/
  | globalLoadAnswer (c : Nat)
  /-- R102: A posted store is acknowledged at its destination. -/
  | postedStoreAck (c : Nat)
  /-- R95: A refused posted store sets IPEND.RSTERR and updates RSTADDR. -/
  | postedStoreRefused (c : Nat)
  /-- R100: A waiting FE instruction retries 2 steps after a fill or empty of its word. -/
  | feWakeScratchpad (c : Nat)
  /-- R176: A watched FE double-word changes and the cobble reissues 4 steps later. -/
  | feWakeBlockStore (c : Nat)
  /-- R177: A remote FE operation is tested and updated indivisibly at its target. -/
  | remoteFeOperation (b : Nat)
  /-- R177: The network interface resends a NOT_READY remote FE request 32 steps later. -/
  | remoteFeResend (c : Nat)
  /-- R140: A DMA, stream, remote or scrub access takes a bank-step that foreground work left idle. -/
  | backgroundBankAccess (b cob : Nat)
  /-- R215: External accesses committed to an unreserved step form a wave by themselves. -/
  | externalWave (b : Nat)
  /-- R163: A corrected row is written back in the bank's next idle step. -/
  | correctionWriteBack (row : Nat)
  /-- R164: A row with an uncorrectable error is written as poisoned in the next idle step. -/
  | poisonWrite (row : Nat)
  /-- R165: A bank's next scrub row falls due every 2^INT steps. -/
  | scrubRowDue (b n : Nat)
  /-- R165: A due row is read in the first idle bank-step and corrected or poisoned. -/
  | scrubRead (b n : Nat)
  /-- R166: A bank reaches 2^20 steps without an idle step. -/
  | scrubStarved (b n : Nat)
  /-- R499: CECNT reaches a multiple of 2^CETHR and the block logs CE_RATE. -/
  | ceRate (b : Nat)
  /-- R168: A remote access enters a block and is checked against tenant, CODELIM, cache quarters and windows. -/
  | remoteAccess (b : Nat)
  /-- R172: A WINn_CTL write sets OPEN from 0 to 1 after its checks. -/
  | windowOpen (b : Nat)
  /-- R173: A WINn_CTL write of OPEN = 0 closes the window for later accesses. -/
  | windowClose (b : Nat)
  /-- R173: The close is acknowledged once every access admitted before it has completed. -/
  | windowCloseAck (b : Nat)
  /-- R161: A write changing NQ runs FLUSHINV and changes the cache split. -/
  | cachectlWrite (b : Nat)
  /-- R159: A CACHEOP write with OP 0b00 updates only SYNCEN and SYNCID. -/
  | cacheopNone (b : Nat)
  /-- R159: Starts a scan writing back dirty bytes in range. -/
  | flush (b : Nat)
  /-- R159: Starts a scan clearing valid and dirty masks in range. -/
  | inv (b : Nat)
  /-- R159: Starts a FLUSH then INV scan in range. -/
  | flushinv (b : Nat)
  /-- R159: The scan and every write-back finish, BUSY clears and SYNCID may be incremented. -/
  | cacheOperationDone (b : Nat)
  /-- R157: A cache fill returns through the FILL binding and the waiting load completes. -/
  | cacheFillDone (b : Nat)
  /-- R181: A SET reaches a sync object and sets VALUE and clears ERR. -/
  | syncSet (b : Nat)
  /-- R181: An ADD reaches a sync object, updates VALUE and wakes met watches. -/
  | syncAdd (b : Nat)
  /-- R181: A READ returns ERR and VALUE after the step's adds. -/
  | syncRead (b : Nat)
  /-- R183: A SYNCWATCH write with ARM = 1 withdraws any watch, increments ASEQ and registers a new one. -/
  | syncwatchArm (c : Nat) (obj : BitVec 13) (target : BitVec 31)
  /-- R183: A SYNCWATCH write with ARM = 0 withdraws the watch and sets IDLE. -/
  | syncwatchWithdraw (c : Nat) (obj : BitVec 13) (target : BitVec 31)
  /-- R185: A registration reaches the owning block and is compared or refused. -/
  | watchRegistration (b : Nat)
  /-- R183: A wake or refusal reaches the cobble, setting IPEND.SIGNAL unless its ASEQ is stale. -/
  | watchWake (c : Nat)
  /-- R183: The owning block's withdrawal acknowledgement releases the SYNCWATCH write. -/
  | withdrawalAck (c : Nat)
  /-- R190: A 4-byte store to BARARRIVE counts in COUNT or EARLY, or is refused. -/
  | barrierArrival (b : Nat)
  /-- R190: A child node's arrival reaches its parent on the barrier wires. -/
  | barrierChildArrival (b : Nat)
  /-- R191: The root releases the generation, incrementing release objects and toggling GEN. -/
  | barrierRelease (b : Nat)
  /-- R196: A host signal message with OP ADD is checked and applied. -/
  | hostSignalAdd (pp : Nat) (tenant : BitVec 16) (cls : Nat)
  /-- R196: A host signal message with OP SET is checked and applied. -/
  | hostSignalSet (pp : Nat) (tenant : BitVec 16) (cls : Nat)
  /-- R196: A host signal message with OP READ returns the object word. -/
  | hostSignalRead (pp : Nat) (tenant : BitVec 16) (cls : Nat)
  /-- R197: An 8-byte DBELL store sends a doorbell towards a packet port, or is refused. -/
  | doorbell (b : Nat)
  /-- R197: The doorbell enters the port's queue and the DBELL store is acknowledged. -/
  | doorbellQueued (pp : Nat)
  /-- R197: A queued doorbell leaves on the signals channel when hub credit allows. -/
  | doorbellSend (pp : Nat)
  /-- R199: A clear order at a control stop runs the 6,144-step clear of Table 07-7. -/
  | islandClear (i : Nat)
  /-- R199: The island finishes the clear and reports, applying recorded slot modes. -/
  | islandReportsClear (i : Nat)
  /-- R202: After THR all-waiting ticks the island moves to PARKOP and sets PARKED. -/
  | park (i : Nat)
  /-- R202: A WAITCTL write; clearing PARKEN while parked restores the granted point. -/
  | waitctlWrite (i : Nat) (value : BitVec 32)
  /-- R222: A piazza instruction's count ends and its flags are ORed into PFLAGS. -/
  | piazzaCountEnd (k n : Nat)
  /-- R129: The lane unit powers down after 256 idle steps. -/
  | laneUnitPowerDown (c : Nat)
  /-- R130: A 48-step lane-unit wake completes. -/
  | laneUnitWakeDone (c : Nat)
  /-- R131: A write of AWAKE starts a wake or restarts the idle count. -/
  | svxctlWrite (c : Nat) (awake : Bool)
  /-- R252: The piazza lanes power down after 256 steps without pipe reservations. -/
  | laneSleep (k : Nat)
  /-- R252: The 48-step piazza lane wake completes. -/
  | laneWakeDone (k : Nat)
  /-- R252: A write of PVCTL.AWAKE starts or holds lane power. -/
  | pvctlWrite (k : Nat) (awake : Bool)
  /-- R206: A PZCFGk write records the requested slot mode for the next clear. -/
  | pzcfgModeWrite (k : Nat) (value : BitVec 32)
  /-- R293: A CHn_PROD write posts descriptors, refused when the ring would overflow. -/
  | chnProdWrite (b : Nat)
  /-- R296: A channel reads and checks its next descriptor. -/
  | descriptorStart (b ch : Nat)
  /-- R297: The engine issues one piece request per step within its limits. -/
  | dmaPieceRequest (b : Nat)
  /-- R299: An answer to a piece request arrives, possibly failing the descriptor. -/
  | dmaAnswer (b : Nat)
  /-- R299: A failing descriptor's requests are all answered and the channel goes FAILED. -/
  | descriptorDrained (b ch : Nat)
  /-- R303: Every write is acknowledged; SYNCID is incremented and CONS advances in ring order. -/
  | descriptorComplete (b ch : Nat)
  /-- R300: A descriptor's TIMEOUT expires and it fails. -/
  | descriptorTimeout (b ch : Nat)
  /-- R293: CHn_CTL CLR skips the failed descriptor and resumes. -/
  | clr (b : Nat)
  /-- R293: CHn_CTL ABORT discards every posted descriptor and goes IDLE. -/
  | abort (b : Nat)
  /-- R290: The stream engine sends an RD command beat. -/
  | rd (sp : Nat)
  /-- R290: The stream engine sends a WR command with data beats. -/
  | wr (sp : Nat)
  /-- R290: The stream engine sends a WRM command with mask and data beats. -/
  | wrm (sp : Nat)
  /-- R290: The stream engine sends a RLY command to a far die. -/
  | rly (sp : Nat)
  /-- R540: An RSP beat with its data is received and matched by TAG. -/
  | rsp (sp : Nat)
  /-- R540: An ACK beat is received and matched by TAG. -/
  | ack (sp : Nat)
  /-- R291: A RLY received on a RELAY binding becomes REMOTE writes and is answered ACK. -/
  | inboundRly (sp : Nat)
  /-- R330: A stream beat is sent within the negotiated window and MINGAP. -/
  | outboundBeat (sp : Nat)
  /-- R331: A received beat is checked and answered ACK or NAK. -/
  | inboundBeat (sp : Nat) (d : BitVec 256) (x : BitVec 8)
  /-- R330: An ACK answer frees the beat's replay slot. -/
  | beatAnswer (sp : Nat)
  /-- R336: A NAK starts a replay from the rejected beat with the resume mark. -/
  | beatNak (sp : Nat) (probe : Bool)
  /-- R337: A 2^24-step window ends and the replay count is checked against RATELIM. -/
  | replayRateWindow (pt : Nat)
  /-- R340: A data frame is sent when its channel's credit covers it. -/
  | frameSend (pp : Nat)
  /-- R341: A received data frame is accepted, discarded or treated as duplicate by SEQ. -/
  | dataFrame (pp : Nat) (fl : List (BitVec 272))
  /-- R341: A received control frame delivers ACKSEQ, NAKF and credits. -/
  | controlFrame (pp : Nat) (f : BitVec 272)
  /-- R342: 256 steps without ACKSEQ advance replay every buffered frame. -/
  | frameReplayTimeout (pp : Nat)
  /-- R343: An accepted frame is reported within 8 steps. -/
  | ackseqReport (pp : Nat)
  /-- R343: An UP port sends a control frame at least every 128 steps. -/
  | controlFrameInterval (pp : Nat)
  /-- R344: LCTL.TRAIN or a partner starts training of a DOWN or FAILED port. -/
  | train (pt : Nat) (own : Bool)
  /-- R358: LCTL.RETIRE retires the port with cause COMMAND. -/
  | retire (pt : Nat)
  /-- R345: A slow presence beat is received during PRESENCE. -/
  | presenceBeat (pt : Nat) (d : BitVec 256)
  /-- R346: A ROLE beat is received and the leader decided, or ID_CLASH found; its wires D[255:247], D[246:240] and D[239:0]. -/
  | roleBeat (pt : Nat) (lead : BitVec 9) (wd : BitVec 7) (id : BitVec 240)
  /-- R352: A capability beat is received and the common subset derived. -/
  | capabilityBeat (pt : Nat) (d : BitVec 256)
  /-- R347: A PRBS31 sweep beat is sampled at a delay code. -/
  | sweepBeat (pt code : Nat) (bad : BitVec 273)
  /-- R345: A VERIFY pattern beat is checked. -/
  | verifyBeat (pt : Nat) (pass : Bool)
  /-- R345: A DONE beat is received; both ends done makes STATE UP. -/
  | doneBeat (pt : Nat)
  /-- R345: A slow status beat reports the partner receiver's phase and result: passed, with the spares its SWEEP found (R348), or not. -/
  | statusBeat (pt ph : Nat) (pass : Option (List (BitVec 8)))
  /-- R345: A training phase exceeds its timeout and the port goes FAILED. -/
  | trainingTimeout (pt : Nat)
  /-- R354: A beat period of 65,536 beats moves the mirror to the next wire. -/
  | mirrorPeriod (pt lo hi : Nat)
  /-- R355: After 64 quiet steps the next beat is sampled at a trial code. -/
  | quietWindowProbe (sp : Nat) (d : BitVec 256) (x : BitVec 8)
  /-- R323: An idle seam direction drives the test pattern and detects failed wires. -/
  | seamIdleTest (b : Nat) (bad : BitVec 528) (ctl : Bool)
  /-- R315: A network interface admits a packet, refusing destinations outside PARTRECT. -/
  | packetInjection (b : Nat)
  /-- R318: A router output grants a header with downstream room by effective level. -/
  | routerGrant (b port5 : Nat) (err : BitVec 80)
  /-- R318: A packet waiting 64 steps at a queue head gains one effective level. -/
  | priorityAgeing (b point n : Nat)
  /-- R313: A returned credit frees a downstream buffer slot for the upstream router. -/
  | creditReturn (b port5 vc : Nat)
  /-- R320: A packet's tail reaches its destination network interface and is acted on. -/
  | packetEjection (b vc : Nat)
  /-- R319: A NOCPRI write changes requester levels from the next arbitration. -/
  | nocpriWrite (b : Nat)
  /-- R361: An Ethernet frame reaches the NTE slice and is matched or dropped. -/
  | nteFrameReceived (i : Nat)
  /-- R370: An incoming SEND takes an RQE and is placed, or answered RNR NAK. -/
  | incomingSend (i : Nat)
  /-- R369: An incoming RDMA WRITE is checked against its region and placed. -/
  | incomingWrite (i : Nat)
  /-- R369: An incoming RDMA READ is checked and served from its region. -/
  | incomingRead (i : Nat)
  /-- R374: A READ response packet is placed in the requester's buffer. -/
  | readResponse (i : Nat)
  /-- R375: An ACK advances the oldest unacknowledged PSN and restores the retry counter. -/
  | incomingAck (i : Nat)
  /-- R375: A NAK is received and causes resend or QP failure. -/
  | incomingNak (i : Nat)
  /-- R379: A CNP lowers the QP's current rate and raises alpha. -/
  | incomingCnp (i : Nat)
  /-- R366: A send-queue PROD write posts WQEs under the ring checks. -/
  | sqidxProdWrite (i : Nat)
  /-- R366: A receive-queue PROD write posts RQEs. -/
  | rqidxProdWrite (i : Nat)
  /-- R367: A SEND work request starts from its WQE. -/
  | send (i qp : Nat)
  /-- R367: A SEND with immediate starts. -/
  | sendImm (i qp : Nat)
  /-- R367: An RDMA WRITE work request starts. -/
  | write (i qp : Nat)
  /-- R367: An RDMA WRITE with immediate starts. -/
  | writeImm (i qp : Nat)
  /-- R367: An RDMA READ work request starts. -/
  | read (i qp : Nat)
  /-- R374: A work request completes and signals SYNCID in SQ order. -/
  | workRequestComplete (i qp : Nat)
  /-- R374: A received message's RQE completion and placements are acknowledged and signalled. -/
  | responderCompletion (i qp : Nat)
  /-- R375: The Local ACK timer expires, resending or failing with RETRY_EXCEEDED. -/
  | localAckTimeout (i qp : Nat)
  /-- R375: The peer's RNR wait ends and the QP resends. -/
  | rnrTimer (i qp : Nat)
  /-- R379: A TALPHA interval without CNP decays alpha. -/
  | talpha (i qp : Nat)
  /-- R379: A TINC interval or BINC bytes without CNP raises the rate. -/
  | tinc (i qp : Nat)
  /-- R373: A write setting MRn_CTL.VALID opens a region after its checks. -/
  | mrValidSet (i : Nat)
  /-- R373: A write clearing VALID closes the region and acknowledges after placements drain. -/
  | mrValidClear (i : Nat)
  /-- R381: A command item is accepted at its END frame and checked before queueing. -/
  | commandItem (pp : Nat)
  /-- R387: The next queued item starts by PRIO and arrival order. -/
  | itemStart (q : Nat)
  /-- R389: An item's TIMEOUT expires and it is answered TIMEOUT. -/
  | commandTimeout (q : Nat)
  /-- R433: Returns the identity record. -/
  | identify
  /-- R497: Returns step and event counters of selected islands. -/
  | readStepcnt
  /-- R392: Returns the partition map. -/
  | readPartmap
  /-- R402: Checks and stores a partition plan for the next chip reset. -/
  | setPlan
  /-- R404: Stores the tenant's keys, runs the clear and opens the partition. -/
  | openPartition (part : Nat)
  /-- R404: Flushes, fences, clears and closes the partition, discarding keys and image. -/
  | closePartition (part : Nat)
  /-- R405: Records slot mode requests for the next clear. -/
  | setSlotMode (part : Nat)
  /-- R401: Returns partition, image and context state. -/
  | queryPartition (part : Nat)
  /-- R396: Checks a manifest and image and marks usable variants. -/
  | loadImage (part : Nat) (data : List (BitVec 8))
  /-- R398: Unloads the partition's image. -/
  | unloadImage (part : Nat)
  /-- R400: Selects a bucket variant, places segments and releases every core at tick T. -/
  | launch (part : Nat) (data : List (BitVec 8))
  /-- R392: Writes SIGPERM of a block. -/
  | setSigperm (part : Nat)
  /-- R392: Applies a sync-object signal through the command queue. -/
  | signal (part : Nat)
  /-- R286: Writes a stream binding register. -/
  | bindStream (part : Nat)
  /-- R392: Clears a binding's VALID. -/
  | unbindStream (part : Nat)
  /-- R363: Sets a slice's endpoint settings. -/
  | nteEndpoint (part : Nat)
  /-- R364: Moves a QP from RESET to RTS with its connection settings. -/
  | qpConnect (part : Nat)
  /-- R364: Returns a QP to RESET after placements drain. -/
  | qpDisconnect (part : Nat)
  /-- R392: Returns a port's link registers. -/
  | linkStatus
  /-- R344: Starts training of a port. -/
  | linkTrain
  /-- R358: Retires a port with cause COMMAND. -/
  | linkRetire
  /-- R199: Fences, drains, flushes and clears the partition's context. -/
  | contextSwitch (part : Nat)
  /-- R451: Runs the partition reset phases. -/
  | resetPartition (part : Nat)
  /-- R449: Fences, drains and clears one block. -/
  | resetBlock (b : Nat)
  /-- R448: Resets one cobble to its launch state. -/
  | resetCobble (c : Nat)
  /-- R450: Resets an engine and searches its suspects. -/
  | resetEngine (b eng : Nat)
  /-- R444: Fences a partition or block for reset. -/
  | fenceCommand
  /-- R391: Answers unstarted and partial items of a partition queue FLUSHED. -/
  | flushQueue
  /-- R452: Replies and then resets the chip. -/
  | resetChip
  /-- R494: Returns log records in SEQ order. -/
  | readLog
  /-- R467: Returns encrypted dump bytes. -/
  | readDump
  /-- R466: Copies the partition's dump records to package memory. -/
  | copyDump
  /-- R392: Returns a block's error and link counters. -/
  | readErrcnt
  /-- R472: Sets the sustained and peak power limits. -/
  | setBudget
  /-- R482: Returns per-island waiting, OP and step-counter data. -/
  | readTelemetry
  /-- R477: Sets OPMAX, NOPARK and PIN per island. -/
  | setOpcap
  /-- R490: Returns ageing records from the ring. -/
  | readAgeing
  /-- R514: Self-tests selected idle islands, deferring busy ones. -/
  | selftestRun
  /-- R514: Returns self-test schedule and results. -/
  | selftestStatus
  /-- R419: Returns DICE evidence signed with the Alias key. -/
  | attest
  /-- R418: Returns a DICE layer certificate. -/
  | getCert
  /-- R436: Writes firmware data into the staging slot. -/
  | fwStage
  /-- R437: Verifies and activates the staged firmware. -/
  | fwActivate
  /-- R516: Returns a one-use debug nonce. -/
  | debugChallenge
  /-- R516: Verifies the signed nonce and unlocks the partition's debug. -/
  | debugUnlock
  /-- R517: Locks debug and resumes halted cores. -/
  | debugLock
  /-- R518: Halts cores in the scope at their next boundary. -/
  | halt
  /-- R518: Resumes halted cores. -/
  | resume
  /-- R520: Returns a core's registers and CSRs. -/
  | readCore
  /-- R198: Returns a sync object's VALUE. -/
  | readSync
  /-- R521: Starts, stops or queries the trace. -/
  | traceCtl
  /-- R441: An engine busy PROG µs without progress is marked HUNG and reset. -/
  | engineWatchdog (b eng : Nat)
  /-- R445: A fenced domain's drain limit expires and outstanding requests are abandoned. -/
  | drainLimit (n : Nat)
  /-- R457: A suspect's replay completes or hangs, clearing or convicting it. -/
  | guiltyPartyReplay (b eng : Nat)
  /-- R442: A write of MWDOG.KICK reloads REMAIN. -/
  | kick
  /-- R442: REMAIN reaches 0 or the lockstep copies disagree and the management core restarts. -/
  | mgmtWatchdogExpiry (lockstep : Bool)
  /-- R442: Firmware restarts and answers outstanding items TIMEOUT. -/
  | mgmtRestartDone
  /-- R454: A 1 ms period sends the next escalation code frame on ATTN_N. -/
  | attnFrame
  /-- R452: Dumps done or 20 ms after the second management port fails, code 0x1 is signalled. -/
  | mgmtUnreachable
  /-- R451: A second failed reset powers down the partition's islands and marks it LOST. -/
  | partitionLost (part : Nat)
  /-- R466: A newly written dump record is copied to the partition's copy region. -/
  | dumpRecordCopied (part : Nat)
  /-- R475: A power reading message updates windows, signatures and operating-point grants. -/
  | powerReading (pp : Nat)
  /-- R473: 200 µs or 1 ms without readings freezes raises or caps islands at OP2. -/
  | readingsMissing
  /-- R482: Every 1 ms the steward sends the power status message. -/
  | powerStatusMessage
  /-- R37: A regulator settles inside its band at a new entry after a slew. -/
  | regulatorSettled (i : Nat)
  /-- R479: ALERT_N forces every island regulator to OP0 without firmware. -/
  | alertNAssert
  /-- R480: ALERT_N is released and the alert logged. -/
  | alertNRelease
  /-- R480: 1 ms after release all grants go to OP0 and allocation resumes. -/
  | alertReleaseDelay
  /-- R481: An island voltage below 0.45 V holds every stage. -/
  | brownoutHoldStart (i : Nat)
  /-- R481: The voltage returns above 0.47 V and stages resume. -/
  | brownoutHoldEnd (i : Nat)
  /-- R527: A 10 ms continuous hold makes firmware reset or lose the partition. -/
  | brownoutRegulatorFail (i : Nat)
  /-- R485: A sentinel's 100 µs ring-oscillator measurement ends every 10 ms. -/
  | sentinelMeasurement (i j data matched test : Nat)
  /-- R486: A clean 50 µs interval yields a step-time average for the held OP. -/
  | stepTimeSample (i steps : Nat)
  /-- R487: Every 24 h voltage entries, MDCODE and link codes are re-planned. -/
  | marginReplan
  /-- R533: A sensor at 125 °C asserts THERMTRIP_N and forces OP0. -/
  | thermalTrip (sensor temp : Nat)
  /-- R49: A TIMEREF rising edge advances package time and island shadows. -/
  | timerefEdge
  /-- R52: 200 ns without an edge sets LOST and APPROX and switches to the ring oscillator. -/
  | timerefLoss
  /-- R49: A hub time message sets or realigns package time. -/
  | timeMessage (value : BitVec 64)
  /-- R495: The log engine writes the oldest open slot as one record. -/
  | logRecordWrite
  /-- R493: The hub acknowledges a copied log record. -/
  | logCopyAck
  /-- R498: A 48-bit counter wraps and its extension increments. -/
  | cntWrap (i ev : Nat)
  /-- R500: A saturating counter reaches its maximum and logs once. -/
  | cntSat
  /-- R52: A read of PKTIME_LO latches the upper half into PKTIME_HI. -/
  | pktimeLoRead
  /-- R498: A read of a counter's LO register latches its HI register. -/
  | stepcntLoRead (i ev : Nat)
  /-- R483: A read of ENERGY_LO latches ENERGY_HI. -/
  | energyLoRead
  /-- R13: A read of an RC register such as RSTADDR, WVSTAT or PBCREC returns and clears it. -/
  | rcRegisterRead (b : Nat)
  /-- R13: A write to a register without a row of its own, under its access code and lock. -/
  | registerWrite (fw : Bool) (space unit off : Nat) (value : BitVec 32)
  /-- R21: Boot code writes a block's SKIP and FENCE, refused for invalid SKIP or after the lock. -/
  | blkmapWrite (b : Nat) (value : BitVec 32)
  /-- R407: A BOOTPH write advances the boot phase; phase 2 locks the protection set-up. -/
  | bootphWrite (value : BitVec 32)
  /-- R422: PWRGOOD rises, straps are sampled and a cold start begins. -/
  | pwrgoodRise (pos : BitVec 6) (cls : BitVec 2) (testmode : Bool)
  /-- R531: Power loss: regulators off, ports stopped, outputs released. -/
  | pwrgoodFall
  /-- R531: RESET_N low with PWRGOOD high resets the chip. -/
  | resetNAssert
  /-- R531: RESET_N rises and the start runs. -/
  | resetNRelease
  /-- R525: VAON below 0.72 V for 1 µs is treated as PWRGOOD low. -/
  | vaonLow
  /-- R531: A VIN rail rises or leaves its range at the bonds. -/
  | vinRailChange (south ok : Bool)
  /-- R422: Start stage 1 ends: core out of reset, store BIST, fuses sensed. -/
  | managementCoreStage
  /-- R422: Start stage 2 ends: time, service ring, regulators, routers and seam tested; `bad`: regulators, control stops and ring
  segments that failed. -/
  | timebaseStage (bad : BitVec 10 × BitVec 10 × BitVec 11) (seams : List (Nat × Nat × Nat)) (routers : List Nat)
  /-- R423: Stage 2a ends: PP10/PP11 trained, boot code verified and started. -/
  | managementPortStage (image : List (BitVec 8)) (recOk : Bool)
  /-- R427: Stage 3 ends: SRAM BIST, row repair, defect maps and margins. -/
  | memoryStage (defects : List (Nat × Nat)) (slow : List (Nat × Int))
  /-- R422: Stage 4 ends: stream and island packet ports trained. -/
  | linkStage
  /-- R430: Stage 5 ends: maps and plan written, locked, islands released at OP0. -/
  | computeIslandStage (differs : List Nat) (image : List (BitVec 8))
  /-- R424: No TIMEREF edge 1 s into stage 2 stops the start and raises ATTN_N. -/
  | timerefAbsent
  /-- R531: A VIN rail still low after 20 ms in stage 2 makes its islands absent. -/
  | railWaitExpiry
  /-- R454: Management service not ready 3.0 s after PWRGOOD or RESET_N. -/
  | startFailed
  /-- R507: A 1687 FUSEPROG write programs a fuse under its conditions. -/
  | fuseprog (field idx value : Nat) (vfuse : Bool)
  /-- R504: TAP BYPASS instruction. -/
  | bypass (tdi : List Bool)
  /-- R505: TAP IDCODE returns 0x1C81_06B7. -/
  | idcode (tdi : List Bool)
  /-- R504: TAP SAMPLE/PRELOAD instruction. -/
  | samplePreload (tdi : List Bool)
  /-- R504: TAP EXTEST instruction in test mode. -/
  | extest (tdi : List Bool)
  /-- R504: IEEE 1838 wrapper instructions in test mode. -/
  | wrapperInstructions (tdi : List Bool)
  /-- R504: Access to the IEEE 1687 instrument segments allowed by SHIP. -/
  | networkAccess1687 (seg : Nat) (tdi : List Bool)
  /-- R513: Firmware picks the idle island with the oldest test and starts it. -/
  | selftestSchedule
  /-- R511: A self-test segment ends at a checkpoint, yielding to waiting actions. -/
  | selftestCheckpoint (i : Nat) (defects : List (Nat × Nat))
  /-- R516: A debug nonce expires 10 s after issue. -/
  | debugNonceExpiry (part : Nat)
  /-- R516: The 60 s lockout after three failed unlocks ends. -/
  | debugLockoutEnd (part : Nat)
  /-- R52: The on-die ring oscillator advances package time, its island shadows and every running timeout while no TIMEREF edge is counted. -/
  | ringOscillatorTick
  /-- R379: The slice sends the next packet of a QP that has work, round-robin among QPs whose rate rc allows a packet. -/
  | ntePacketSend (i : Nat)
  /-- R451: A phase of a partition reset reaches its limit: the scratch sample is truncated at the collect limit, or an island that has not reported clear makes firmware run the reset once more. -/
  | resetPhaseLimit (part : Nat)
  /-- R453: An engine reset not done within 2 ms escalates to a partition reset. -/
  | engineResetLimit (b eng : Nat)
deriving DecidableEq, Repr

end Sys2Proof
end

