-- ==== Sys2Proof/Decode.lean ====
section
/-!
DEFINITION. What a word spells: by the bits of the opcode table nothing, since the table gives its rows none; by the formats of
the cobbles' instruction set, the instruction of Tables 04-3, 04-4, 04-14, 05-1 to 05-4, 08-5, 09-2, 09-3 and 10-2.
-/

namespace Sys2Proof

/-- The command that a word spells by the table's bits. -/
def decodeTableWord (_nbits _w : Nat) : Option Instr := none

/-- Bits [lo + n − 1 : lo] of an instruction word. -/
def wordField (w : BitVec 32) (lo n : Nat) : BitVec n := w.extractLsb' lo n
def flag (w : BitVec 32) (i : Nat) : Bool := w.getLsbD i

/-- Members of the integer register groups 0x00 and 0x09 by fn[5:0] (Table 04-14). -/
def decodeInt (c : Nat) (w : BitVec 32) (mul : Bool) : Option Instr :=
  let x := flag w 6
  let rd := wordField w 20 6
  let a := wordField w 14 6
  let b := wordField w 8 6
  if flag w 7 then none
  else match mul, (wordField w 0 6).toNat with
  | false, 0 => some (.add c x rd a b)
  | false, 1 => some (.sub c x rd a b)
  | false, 2 => some (.and c x rd a b)
  | false, 3 => some (.or c x rd a b)
  | false, 4 => some (.xor c x rd a b)
  | false, 5 => some (.shll c x rd a b)
  | false, 6 => some (.shrl c x rd a b)
  | false, 7 => some (.shra c x rd a b)
  | false, 8 => some (.setlt c x rd a b)
  | false, 9 => some (.setltu c x rd a b)
  | false, 10 => some (.min c x rd a b)
  | false, 11 => some (.max c x rd a b)
  | false, 12 => some (.minu c x rd a b)
  | false, 13 => some (.maxu c x rd a b)
  | true, 0 => some (.mul c x rd a b)
  | true, 1 => some (.mulhs c x rd a b)
  | true, 2 => some (.mulhu c x rd a b)
  | true, 3 => some (.divs c x rd a b)
  | true, 4 => some (.divu c x rd a b)
  | true, 5 => some (.mods c x rd a b)
  | true, 6 => some (.modu c x rd a b)
  | _, _ => none

/-- Members selected by bits [13:12]: shifts by a constant, loads, stores, full/empty, branches and CSR accesses (Table
04-14). -/
def decodeSel (c op : Nat) (w : BitVec 32) : Option Instr :=
  let r := wordField w 20 6
  let a := wordField w 14 6
  let i := wordField w 0 12
  match op, (wordField w 12 2).toNat with
  | 0x05, 0 => some (.shllI c r a i)
  | 0x05, 1 => some (.shrlI c r a i)
  | 0x05, 2 => some (.shraI c r a i)
  | 0x0A, 0 => some (.ldB c r a i)
  | 0x0A, 1 => some (.ldBu c r a i)
  | 0x0A, 2 => some (.ldH c r a i)
  | 0x0A, 3 => some (.ldHu c r a i)
  | 0x0B, 0 => some (.ldW c r a i)
  | 0x0B, 1 => some (.ldWu c r a i)
  | 0x0B, 2 => some (.ldD c r a i)
  | 0x0C, 0 => some (.fldS c r a i)
  | 0x0C, 1 => some (.fldD c r a i)
  | 0x0E, 0 => some (.stB c r a i)
  | 0x0E, 1 => some (.stH c r a i)
  | 0x0E, 2 => some (.stW c r a i)
  | 0x0E, 3 => some (.stD c r a i)
  | 0x0F, 0 => some (.fstS c r a i)
  | 0x0F, 1 => some (.fstD c r a i)
  | 0x10, 0 => some (.ldwf c r a i)
  | 0x10, 1 => some (.lde c r a i)
  | 0x11, 0 => some (.stwe c r a i)
  | 0x11, 1 => some (.stf c r a i)
  | 0x11, 2 => some (.purge c r a i)
  | 0x12, 0 => some (.brEq c r a i)
  | 0x12, 1 => some (.brNe c r a i)
  | 0x12, 2 => some (.brLt c r a i)
  | 0x12, 3 => some (.brGe c r a i)
  | 0x13, 0 => some (.brLtu c r a i)
  | 0x13, 1 => some (.brGeu c r a i)
  | 0x17, 0 => some (.crd c r a i)
  | 0x17, 1 => some (.cwr c r a i)
  | 0x17, 2 => some (.cset c r a i)
  | 0x17, 3 => some (.cclr c r a i)
  | _, _ => none

/-- Members of major 0x18 by fn[7:2], of the three-source majors, and of system control by the rd field (Table 04-14). -/
def decodeFp (c : Nat) (w : BitVec 32) : Option Instr :=
  let rd := wordField w 20 6
  let a := wordField w 14 6
  let b := wordField w 8 6
  let f := wordField w 0 2
  match (wordField w 2 6).toNat with
  | 0 => some (.fadd c rd a b f)
  | 1 => some (.fsub c rd a b f)
  | 2 => some (.fmul c rd a b f)
  | 3 => some (.fdiv c rd a b f)
  | 4 => some (.fsqrt c rd a b f)
  | 5 => some (.fmin c rd a b f)
  | 6 => some (.fmax c rd a b f)
  | 7 => some (.fcmpEq c rd a b f)
  | 8 => some (.fcmpLt c rd a b f)
  | 9 => some (.fcmpLe c rd a b f)
  | 10 => some (.fkind c rd a b f)
  | 11 => some (.fmov c rd a b f)
  | 12 => some (.fcvtF c rd a b f)
  | 13 => some (.fcvtFi c rd a b f)
  | 14 => some (.fcvtIf c rd a b f)
  | 15 => some (.frint c rd a b f)
  | _ => none

def decodeSys (c : Nat) (w : BitVec 32) : Option Instr :=
  let a := wordField w 14 6
  let i := wordField w 0 14
  match (wordField w 20 6).toNat with
  | 0 => some (.fence c a i)
  | 1 => some (.phase c a i)
  | 2 => some (.wait c a i)
  | 3 => some (.exit c a i)
  | 4 => some (.trap c a i)
  | 5 => some (.brk c a i)
  | 6 => some (.hret c a i)
  | _ => none

/-- Short vectors and small tiles (Tables 05-1, 05-3, 05-4). -/
def decodeSvx (c op : Nat) (w : BitVec 32) : Option Instr :=
  let vd := wordField w 23 3
  let v1 := wordField w 20 3
  let v2 := wordField w 17 3
  let v3 := wordField w 14 3
  let ty := wordField w 11 3
  let fn := wordField w 4 7
  let reg := wordField w 14 6
  let idx := wordField w 5 6
  let x := wordField w 2 3
  match op with
  | 0x1C => match v1.toNat with
    | 0 => some (.vld c vd reg (wordField w 0 14))
    | 1 => some (.vst c vd reg (wordField w 0 14))
    | _ => none
  | 0x1D => match (wordField w 0 4).toNat with
    | 0 => some (.vadd c vd v1 v2 v3 ty fn)
    | 1 => some (.vsub c vd v1 v2 v3 ty fn)
    | 2 => some (.vmul c vd v1 v2 v3 ty fn)
    | 3 => some (.vfma c vd v1 v2 v3 ty fn)
    | 4 => some (.vfms c vd v1 v2 v3 ty fn)
    | 5 => some (.vfnma c vd v1 v2 v3 ty fn)
    | 6 => some (.vmin c vd v1 v2 v3 ty fn)
    | 7 => some (.vmax c vd v1 v2 v3 ty fn)
    | 8 => some (.vcmpeq c vd v1 v2 v3 ty fn)
    | 9 => some (.vcmplt c vd v1 v2 v3 ty fn)
    | 10 => some (.vcmple c vd v1 v2 v3 ty fn)
    | 11 => some (.vsel c vd v1 v2 v3 ty fn)
    | _ => none
  | 0x1E => some (.vcvt c vd v1 v2 v3 ty (wordField w 0 11))
  | 0x1F => if flag w 1 then some (.vcfma c vd v1 v2 v3 ty (flag w 0) (wordField w 2 9))
      else some (.vcmul c vd v1 v2 v3 ty (flag w 0) (wordField w 2 9))
  | 0x20 => some (.vsplit3 c vd v1 v2 v3 ty (wordField w 0 11))
  | 0x21 => match (wordField w 0 2).toNat with
    | 0 => some (.vbcast c vd v1 reg ty idx x)
    | 1 => some (.vext c vd v1 reg ty idx x)
    | 2 => some (.vins c vd v1 reg ty idx x)
    | _ => none
  | 0x28 => some (.tld c vd v1 v2 v3 ty (wordField w 8 3) (wordField w 0 8))
  | 0x29 => some (.tmac c vd v1 v2 v3 ty (wordField w 8 3) (wordField w 0 8))
  | 0x2A => some (.tst c vd v1 v2 v3 ty (wordField w 8 3) (wordField w 0 8))
  | _ => none

/-- Piazza control (major 0x2C) by fn (Tables 09-2, 09-3, 10-2). -/
def decodePzCtl (c : Nat) (w : BitVec 32) : Option Instr :=
  let rd := wordField w 20 6
  let a := wordField w 14 6
  let b := wordField w 8 6
  let n := (wordField w 0 8).toNat
  if n = 0 then some (.pfence c (wordField w 8 18))
  else if n = 1 then some (.vsetl c rd a b)
  else if n = 2 then some (.chld c rd a b)
  else if 0x20 ≤ n ∧ n < 0x24 then some (.mmroww c rd a b (wordField w 0 2))
  else if 0x24 ≤ n ∧ n < 0x28 then some (.mmcolw c rd a b (wordField w 0 2))
  else if n = 0x28 then some (.mmrowr c rd a b)
  else if n = 0x29 then some (.mmcolr c rd a b)
  else if n = 0x2A then some (.mscb c rd a b)
  else none

/-- Piazza ISA groups 0x2C to 0x37 (Tables 08-5, 09-2, 10-2). -/
def decodePz (c op : Nat) (w : BitVec 32) : Option Instr :=
  let rd := wordField w 20 6
  let a := wordField w 14 6
  let b := wordField w 8 6
  let td := wordField w 21 5
  let ts := wordField w 16 5
  let tm := wordField w 11 5
  let sel := (wordField w 0 2).toNat
  match op with
  | 0x2C => decodePzCtl c w
  | 0x2D => some (.mma c rd a b (wordField w 5 3) (wordField w 2 3) (flag w 1) (flag w 0))
  | 0x2E => some (.mmas c rd a b (wordField w 6 2) (wordField w 4 2) (flag w 3) (flag w 2) (flag w 1) (flag w 0))
  | 0x2F => match (wordField w 0 8).toNat with
    | 0 => some (.accz c rd a b)
    | 1 => some (.accld c rd a b)
    | 2 => some (.accst c rd a b)
    | _ => none
  | 0x30 => match sel with
    | 0 => some (.tldp c td (wordField w 15 6) (wordField w 9 6) (wordField w 6 3) (wordField w 3 3) (flag w 2))
    | 1 => some (.tstp c td (wordField w 15 6) (wordField w 9 6) (wordField w 6 3) (wordField w 3 3) (flag w 2))
    | 2 => some (.tldl c td (wordField w 15 6) (flag w 14) (wordField w 9 5) (wordField w 6 3) (wordField w 3 3) (flag w 2))
    | _ => some (.tstl c td (wordField w 15 6) (flag w 14) (wordField w 9 5) (wordField w 6 3) (wordField w 3 3) (flag w 2))
  | 0x31 => some (.top c td ts tm (wordField w 6 5) (wordField w 3 3) (wordField w 1 2) (flag w 0))
  | 0x32 => match sel with
    | 0 => some (.chain c (wordField w 22 4) (wordField w 2 20))
    | 1 => some (.tcvtbn c td ts tm (wordField w 8 3) (wordField w 6 2) (flag w 5) (flag w 4) (wordField w 2 2))
    | 2 => some (.tsplit3 c td ts tm (wordField w 8 3) (flag w 7) (wordField w 2 5))
    | _ => some (.tcvtbw c td ts tm (wordField w 8 3) (wordField w 6 2) (flag w 5) (flag w 4) (wordField w 2 2))
  | 0x33 => match sel with
    | 0 => some (.tcmpr c td ts tm (wordField w 5 6) (wordField w 2 3))
    | 1 => some (.texpd c td ts tm (wordField w 5 6) (wordField w 2 3))
    | _ => none
  | 0x34 =>
    let ty := wordField w 8 3
    let o := wordField w 6 2
    match (wordField w 3 3).toNat with
    | 0 => some (.rowReduce c td ts tm ty o (flag w 2) (flag w 1) (flag w 0))
    | 1 => some (.columnReduce c td ts tm ty o (flag w 2) (flag w 1) (flag w 0))
    | 2 => some (.fullTileReduce c td ts tm ty o (flag w 2) (flag w 1) (flag w 0))
    | 3 => some (.rowScan c td ts tm ty o (flag w 2) (flag w 1) (flag w 0))
    | 4 => some (.columnScan c td ts tm ty o (flag w 2) (flag w 1) (flag w 0))
    | _ => none
  | 0x35 => match sel with
    | 0 => some (.tmvx c rd a (wordField w 9 5) (wordField w 6 3) (flag w 5) (wordField w 2 3))
    | 1 => some (.tmvi c rd a (wordField w 9 5) (wordField w 6 3) (flag w 5) (wordField w 2 3))
    | 2 => some (.tflg c rd a (wordField w 9 5) (wordField w 6 3) (flag w 5) (wordField w 2 3))
    | _ => none
  | _ => none

/-- The instruction that a word of the code region spells at cobble `c`; none for a reserved major opcode or a code that its
group does not define (R91, R92, R115, R117, R211, R230, R253, R536). -/
def decodeWord (c : Nat) (w : BitVec 32) : Option Instr :=
  let op := (wordField w 26 6).toNat
  let r := wordField w 20 6
  let a := wordField w 14 6
  let i := wordField w 0 14
  match op with
  | 0x00 => decodeInt c w false
  | 0x01 => some (.addI c r a i)
  | 0x02 => some (.andI c r a i)
  | 0x03 => some (.orI c r a i)
  | 0x04 => some (.xorI c r a i)
  | 0x06 => some (.setltI c r a i)
  | 0x07 => some (.setltuI c r a i)
  | 0x08 => some (.ldhi c r (wordField w 0 20))
  | 0x09 => decodeInt c w true
  | 0x14 => some (.jlink c (wordField w 0 26))
  | 0x15 => some (.jlinkr c r a i)
  | 0x16 => some (.wcall c (wordField w 0 26))
  | 0x18 => decodeFp c w
  | 0x19 => some (.fma c r a (wordField w 8 6) (wordField w 2 6) (wordField w 0 2))
  | 0x1A => some (.fms c r a (wordField w 8 6) (wordField w 2 6) (wordField w 0 2))
  | 0x1B => if flag w 7 then some (.fnms c r a (wordField w 8 6) (wordField w 2 5) (wordField w 0 2))
      else some (.fnma c r a (wordField w 8 6) (wordField w 2 5) (wordField w 0 2))
  | 0x38 => some (.pchi c r (wordField w 0 20))
  | 0x39 => some (.wcallr c r a i)
  | 0x3A => some (.wret c (wordField w 0 26))
  | 0x3B => decodeSys c w
  | op => if op < 0x1C then decodeSel c op w else if op < 0x2C then decodeSvx c op w else decodePz c op w

end Sys2Proof
end

