-- ==== Sys2Proof/Config.lean ====
section
/-!
DEFINITION. What the spec leaves open, as constants without a body: nothing can be proved about their values.
-/

namespace Sys2Proof.Config

/-- Free values: the `n`th value the hardware yields where the spec states none (notes/assumptions/1.md).
State.freeCtr counts how many have been drawn. -/
opaque freeValue : Nat → BitVec 64

/-- The hardware's result of an approximation stage (0 EXP2, 1 LOG2, 2 RECIP, 3 RSQRT) in a format of the given width for
an input code (R266; notes/assumptions/25.md). -/
opaque approx : Nat → Nat → Nat → Nat

/-- The bytes of a log record's DATA field for an event and the fields Table 21-2 names (notes/assumptions/26.md). -/
opaque logData : Nat → List Nat → List (BitVec 8)

/-- The bytes of reply data whose layout the spec does not give, for an opcode and the values it names
(notes/assumptions/32.md). -/
opaque replyData : Nat → List Nat → List (BitVec 8)

/-- Fields of a firmware or boot code image: 0 public key, 1 signature, 2 signed body; and its numbers: 0 security version,
1 version, 2 advance flag. The spec gives no image layout (notes/assumptions/33.md). -/
opaque fwField : Nat → List (BitVec 8) → List (BitVec 8)
opaque fwNumber : Nat → List (BitVec 8) → Nat

/-- A message that carries a log record (0) or a piece of a dump record (1) to package memory over virtual channel 3, for an
address and bytes; the spec gives no layout (notes/assumptions/32.md). -/
opaque copyMsg : Nat → Nat → List (BitVec 8) → List (BitVec 8)

/-- A message to the hub over virtual channel 3 that reads what the package holds (0 boot code, 1 firmware, 2 an image from an
address on), writes its non-volatile store (3 plan, 4 saved settings, 5 staging slot, 8 ageing ring), or registers (6) and releases (7) an
image's range, for an address and bytes; the spec gives no layout (notes/assumptions/36.md, 72.md). -/
opaque hubMsg : Nat → Nat → List (BitVec 8) → List (BitVec 8)

/-- Bits [247:0] of a training status beat (R345), for a phase, a result and the chosen spares; the spec gives no layout. The
first state of a training port's PRBS31 generator, which it does not give either (notes/assumptions/58.md). -/
opaque statusBits : Nat → Bool → List (BitVec 8) → BitVec 248
opaque prbsSeed : BitVec 31

/-- Kind field of a trace entry: 0 trap, 1 interrupt, 2 PHASE, 3 PFAULT, 4 halt, 5 resume (R522 gives the marker's alone;
notes/assumptions/37.md). -/
opaque traceKind : Nat → BitVec 7

/-- SHA-384 of a byte string (R396, R411): public standard, taken as a black box (notes/assumptions/20.md). -/
opaque sha384 : List (BitVec 8) → List (BitVec 8)

/-- ECDSA P-384 verification: public key, message digest, signature (R411, R516; notes/assumptions/20.md). -/
opaque ecdsaVerify : List (BitVec 8) → List (BitVec 8) → List (BitVec 8) → Bool

/-- ECDSA P-384 signature over a digest by the key a label names (R418, R419; notes/assumptions/20.md). -/
opaque ecdsaSign : List (BitVec 8) → List (BitVec 8) → List (BitVec 8)

/-- HMAC-SHA-384 of a key and a message (R418; notes/assumptions/20.md). -/
opaque hmac384 : List (BitVec 8) → List (BitVec 8) → List (BitVec 8)

/-- AES-256-GCM encryption: key, 96-bit nonce, additional data, plain text; cipher text and tag
(R464; notes/assumptions/20.md). -/
opaque aesGcm : List (BitVec 8) → List (BitVec 8) → List (BitVec 8) → List (BitVec 8) → List (BitVec 8)

end Sys2Proof.Config
end

