-- ==== Sys2Proof/Machine/StateCore.lean ====
section
/-!
DEFINITION. The records of which State is made, for the cobbles, the blocks' memories, the sync units and the mesh
(chapters 01, 04 to 08, 10, 11 and 13). Each reset value is the spec's; where the spec gives none the field's docstring
names the log entry.
-/

namespace Sys2Proof.Machine

/-- The FE instructions (Table 04-6). -/
inductive FeOp | ldwf | lde | stwe | stf | purge
deriving DecidableEq, Repr

/-- What an access does (R139, R99, R177). -/
inductive AccKind
  | rd
  | wr
  | fe (op : FeOp)
deriving DecidableEq, Repr

/-- One access to a unit of a block: the memories, the sync objects or the control space. `space` is the SPACE code of
Table 11-2, and 4 for package memory. `sblk`, `sport`, `tag` name the requester (SPORT codes of Table 13-2), to which
the answer goes. `remote`: it entered through the network interface (R167). `seq` orders admitted remote accesses.
`job`: the job of the block of which it is a part, 0 for none (R139, R143). `granted`: a window that has closed since its
arrival admits it (R173). -/
structure Acc where
  kind : AccKind
  space : Nat
  cob : Nat := 0
  off : Nat
  size : Nat
  data : List (BitVec 8) := []
  mask : Nat := 0
  fill : Bool := false
  poison : Bool := false
  sblk : Nat := 0
  sport : Nat := 0
  tag : Nat := 0
  level : Nat := 0
  sclass : Nat := 0
  sdie : Nat := 0
  tenant : BitVec 16 := 0
  remote : Bool := false
  seq : Nat := 0
  job : Nat := 0
  granted : Bool := false
deriving DecidableEq, Repr

/-- An access that takes more than one bank-step (R139, R141, R143): the access as its requester sent it, the parts not yet
done, the first failing status, the bytes read so far by their place in the access. -/
structure Job where
  acc : Acc
  left : Nat
  status : Nat := 0
  got : Tbl (BitVec 8) := []
deriving DecidableEq, Repr

/-- An answer to an access; `status` holds the STATUS codes of Table 13-2, and `cause` the code of Table 11-9 that a stream
engine's answer stands for, 0 for none (notes/assumptions/85.md). -/
structure Ans where
  sport : Nat
  tag : Nat
  status : Nat
  data : List (BitVec 8) := []
  cause : Nat := 0
deriving DecidableEq, Repr

/-- A watch on a sync object: the watching cobble, the awaited value and the arm sequence (R183, R184). -/
structure Watch where
  cid : Nat
  obj : Nat
  target : Nat
  aseq : Nat
deriving DecidableEq, Repr

/-- A host signal on its way (R195, R196; Tables 07-5 and 07-6): its packet port and the message. -/
structure Signal where
  port : Nat
  msg : List (BitVec 8)
deriving DecidableEq, Repr

/-- A doorbell on its way to a packet port, at its cobble's level (R197, Table 07-6). -/
structure Doorbell where
  srcBlk : Nat
  srcCob : Nat
  tag : Nat
  part : Nat
  payload : BitVec 64
  time : BitVec 64
  level : Nat := 0
deriving DecidableEq, Repr

/-- One beat-level command for a stream port, formed from pieces (R290, R539). `kind`: 0 RD, 1 WR, 2 WRM, 3 RLY. `level` is
its request's, which its answer carries (R311). -/
structure PortCmd where
  kind : Nat
  addr : Nat
  beats : Nat
  mask : List Bool := []
  data : List (BitVec 8) := []
  fill : Bool := false
  poison : Bool := false
  sblk : Nat
  sport : Nat
  tag : Nat
  level : Nat := 0
deriving DecidableEq, Repr

/-- What a mesh packet carries (Tables 13-1 and 13-2). -/
inductive Payload
  | acc (a : Acc)
  | ans (a : Ans)
  | watch (w : Watch) (tenant : BitVec 16)
  | withdraw (w : Watch)
  | wake (w : Watch) (refused : Bool)
  | withdrawn (w : Watch)
  | doorbell (port : Nat) (d : Doorbell)
  | signal (x : Signal)
  | sigAns (x : Signal) (status word : Nat) (time : BitVec 64)
  | portCmd (port : Nat) (c : PortCmd)
deriving DecidableEq, Repr

/-- A packet: class, level, flits − 1, destination and source block, poison mark of R324, waiting steps in units of 64
(R318). -/
structure Packet where
  cls : Nat
  level : Nat
  nfl : Nat
  dst : Nat
  src : Nat
  sport : Nat := 0
  poison : Bool := false
  aged : Nat := 0
  pay : Payload
deriving DecidableEq, Repr

/-- A store-buffer entry: scratchpad offset, size in bytes, data (R96). The byte mask is the `size` bytes from `off`. -/
structure StEntry where
  off : Nat
  size : Nat
  data : BitVec 64
deriving DecidableEq, Repr

/-- Where a load delivers its value: integer register by its place in the file, or f register; `fp32` boxes (R84). -/
inductive Dest
  | int (idx : Nat)
  | fp (idx : Nat) (single : Bool)
deriving DecidableEq, Repr

/-- An outstanding block-store or global load (Table 04-1, R538). -/
structure PendLoad where
  tag : Nat
  dest : Dest
  size : Nat
  signed : Bool
  addr : BitVec 64
  pc : BitVec 64
  tw : Bool
deriving DecidableEq, Repr

/-- An outstanding posted store, by tag and address. -/
structure PendStore where
  tag : Nat
  addr : BitVec 64
deriving DecidableEq, Repr

/-- A deferred trap that is due (R538): cause, TRINFO, TRLPC, and whether its load was issued in the trap window. -/
structure Deferred where
  cause : Nat
  info : BitVec 64
  lpc : BitVec 64
  tw : Bool
deriving DecidableEq, Repr

/-- An FE instruction that holds issue. `tgt`: 0 own scratchpad, 1 own block store, 2 remote. `phase`: 0 waiting for a
change of the FE bit, 1 woken, 2 request in flight, 3 resend due, 4 request not yet admitted by its bank or by the network
interface (R100, R144, R176, R177, R316). -/
structure FeWait where
  op : FeOp
  rd : Nat
  addr : BitVec 64
  tgt : Nat
  data : BitVec 32
  start : Nat
  phase : Nat
deriving DecidableEq, Repr

/-- Why the pipeline holds issue: WAIT and FE waits, which count as waiting (R100, R105), and a load or store that its
bank or the network interface has not admitted: it issues in the step that admits it (R144, R146, R316). -/
inductive Hold
  | none
  | waitInt
  | fe (w : FeWait)
  | adm (load : Option PendLoad) (store : Option PendStore)
deriving DecidableEq, Repr

/-- A core's part in the context: no launched context, running, gated in a piazza (R205), ended by EXIT, failed (R90). -/
inductive Run | idle | running | gated | exited | failed
deriving DecidableEq, Repr

/-- A cobble: registers (R84 to R87), CSRs (Tables 04-8, 05-5, 07-2, 08-4, 10-10), pipeline state, tags of abandoned requests
(R445), the fence of a cobble reset (R444). `swHeld` is the watch that another block holds or has been sent, `swOut` says that
its withdrawal is on its way (R183). `feSince` is the tick at which an FE instruction that holds at issue first
reached it, and its address (R101).
`ints` holds g at 0, S[w] at 16 + 8w, K[w] at 56 + 8w, the trap window at 96. Registers are zero at launch (R109);
before a first launch they are zero too (notes/assumptions/3.md). -/
structure Cobble where
  ints : Tbl (BitVec 64) := []
  fps : Tbl (BitVec 64) := []
  pc : BitVec 64 := 0
  top : Nat := 0
  held : Nat := 1
  move : Nat := 0
  depth : BitVec 16 := 0
  satm : Bool := true
  rm : BitVec 2 := 0
  fpflags : BitVec 5 := 0
  ie : Bool := false
  tw : Bool := false
  pz : Bool := false
  trbase : BitVec 64 := 0
  trpc : BitVec 64 := 0
  trcause : BitVec 64 := 0
  trinfo : BitVec 64 := 0
  trstat : BitVec 64 := 0
  trlpc : BitVec 64 := 0
  timecmp : BitVec 64 := 0xFFFFFFFFFFFFFFFF#64
  fewait : BitVec 64 := 0
  ienable : BitVec 4 := 0
  ipSignal : Bool := false
  ipRsterr : Bool := false
  rstCount : BitVec 8 := 0
  rstAddr : BitVec 56 := 0
  phaseid : BitVec 5 := 0
  pflags : BitVec 64 := 0
  pctl : BitVec 64 := 0x600#64
  pbcrec : BitVec 64 := 0
  plmbase : BitVec 64 := 0
  cobid : BitVec 64 := 0
  codelim : Nat := 0
  asleep : Bool := true
  awakeReq : Bool := false
  waking : Bool := false
  amaxNan : Bool := false
  amax : BitVec 31 := 0
  svscale : BitVec 8 := 0x7F#8
  acc64 : Bool := false
  acc : Tbl (BitVec 64) := []
  swState : Nat := 0
  aseq : Nat := 0
  swObj : Nat := 0
  swTarget : Nat := 0
  swHeld : Option Watch := Option.none
  swOut : Bool := false
  run : Run := .idle
  halted : Bool := false
  hold : Hold := .none
  stbuf : List StEntry := []
  loads : List PendLoad := []
  stores : List PendStore := []
  deferred : List Deferred := []
  ans : List Ans := []
  stAns : List Ans := []
  nextTag : Nat := 0
  goneTags : List Nat := []
  rstHold : Bool := false
  feSince : Option (Nat × BitVec 64) := Option.none
deriving DecidableEq, Repr

/-- A line of the cache quarters: tag, byte-valid and byte-dirty masks, data, age for LRU (R155, R157). `ecc`
marks its double-words by number: 1 a single-bit error, 2 an uncorrectable one not yet detected, 3 poison (R163, R164). -/
structure CLine where
  tag : Nat := 0
  valid : BitVec 256 := 0
  dirty : BitVec 256 := 0
  data : List (BitVec 8) := []
  used : Nat := 0
  ecc : Tbl Nat := []
deriving DecidableEq, Repr

/-- A cache load that waits for its fill (R157), or a write-back that waits for its acknowledgement, with the line it wrote.
`cmd` is its command with the stream port while none of the 256 tags is free for it (R310, R312). -/
structure CMiss where
  acc : Acc
  addr : Nat
  wb : Bool
  tag : Nat
  key : Nat := 0
  line : CLine := {}
  cmd : Option (Nat × PortCmd) := Option.none
deriving DecidableEq, Repr

/-- A WINn_CTL close that waits for earlier accesses (R173). -/
structure Closing where
  acc : Acc
  before : Nat
deriving DecidableEq, Repr

/-- A piece request of a descriptor whose answer is outstanding: its tag, its first byte in the order of R295, its length and
its global address. -/
structure Piece where
  tag : Nat
  start : Nat
  len : Nat
  adr : Nat
deriving DecidableEq, Repr

/-- A descriptor in progress (Tables 11-10 and 11-11): its count, its fields (strides modulo 2^56), the port of its binding,
the tick of its start, the next byte to read and to write in the order of R295, the bytes read and not yet written, the
pieces outstanding; stopped by a failure, its completion signal sent under the tag `sigTag`; `bound`: it uses BIND (R294). -/
structure Desc where
  idx : Nat
  src : Nat
  dst : Nat
  n0 : Nat
  n1 : Nat
  n2 : Nat
  sstr1 : Nat
  sstr2 : Nat
  dstr1 : Nat
  dstr2 : Nat
  bind : Nat
  prio : Nat
  ord : Bool
  idem : Bool
  fill : Bool
  syncen : Bool
  syncid : Nat
  inc : Nat
  timeout : Nat
  user : BitVec 64
  port : Nat := 0
  start : Nat := 0
  rnext : Nat := 0
  wnext : Nat := 0
  got : Tbl (BitVec 8) := []
  reads : List Piece := []
  writes : List Piece := []
  stopped : Bool := false
  signalled : Bool := false
  sigTag : Nat := 0
  bound : Bool := false
deriving DecidableEq, Repr

/-- A DMA channel (Tables 11-7 and 11-8). `dread` is the read of its next descriptor: tag, tick, and the answer's status and
bytes once it is there (R293). -/
structure Chan where
  cfg : BitVec 32 := 0
  err : BitVec 32 := 0
  prod : BitVec 16 := 0
  cons : BitVec 16 := 0
  stat : Nat := 0
  code : BitVec 8 := 0
  fidx : BitVec 16 := 0
  faddr : BitVec 56 := 0
  pcode : BitVec 8 := 0
  pidx : BitVec 16 := 0
  paddr : Option Nat := none
  puser : BitVec 64 := 0
  descs : List Desc := []
  dread : Option (Nat × Nat × Option (Nat × List (BitVec 8))) := Option.none
deriving DecidableEq, Repr

/-- A block: control-space registers, sync unit, memory queues, DMA engine, network interface and router. `seamRun` counts
the consecutive idle steps in which wire g × 33 + w of the received seam direction mismatched, `seamCtl` those in which
two copies of a control wire disagreed, `seamNext` the failed wires whose spare takes over at the next idle step (R323,
R325). `bankq` holds the banks' queues, `waitq` the requests that their banks have not admitted, `bankLast` the port that each
bank admitted last; `sigs` the host signals whose operation is in `syncIn`, by its tag; `bg` the waiting background accesses of the scratchpads and `bgLast` the last winner of each of their
banks; `jobs` the accesses under way part by part; `cwait` the cobbles' cache accesses that wait behind an earlier one to
their double-word (R102, R140, R144); `cacheAdd` the tag of the completion ADD of a cache operation on its way (R182). `bufs` holds the router's input buffers by port × 6 + virtual channel (ports 0 north, 1 east, 2 south, 3 west,
4 local), `credits` the flits in use downstream by output port × 6 + virtual channel, `owed` the freed flits whose credit
has not returned, `outLast` and `niLast` the round-robin pointers, `ejq` the packets at ejection (R309 to R318). `gone`
holds the abandoned requests of engines by SPORT and tag (R445), `rlyTags` the stream port and TAG of the inbound RLY that
each tag of the stream engine serves (R291), `dmaErrs` the failure ADDs that wait for a tag of the DMA engine (R299), `wd` the ticks for which each busy engine (0 DMA, 1 stream,
2 cache, 3 NTE) has made no progress, `engHold` the engines fenced for a reset (R441, R444). -/
structure Block where
  fence : Bool := true
  skip : BitVec 5 := 0x10#5
  rstFence : Bool := false
  engwd : BitVec 32 := 0xF03E8#32
  engstat : BitVec 32 := 0
  nocpri : BitVec 32 := 0xAA#32
  partrect : BitVec 32 := 0
  seamFailed : Bool := false
  seamParerr : BitVec 15 := 0
  seamRepl : BitVec 16 := 0
  seamMap : Tbl (BitVec 8) := []
  seamRun : Tbl Nat := []
  seamCtl : Nat := 0
  seamNext : List (Nat × Nat) := []
  winCtl : Tbl (BitVec 32) := []
  winBase : Tbl (BitVec 32) := []
  winLimit : Tbl (BitVec 32) := []
  winSrc : Tbl (BitVec 32) := []
  winAlloc : Nat := 0
  wvaddr : BitVec 32 := 0
  wvstat : BitVec 32 := 0
  nq : Nat := 0
  nqNew : Nat := 0
  cacheop : BitVec 32 := 0
  cbase : BitVec 48 := 0
  climit : BitVec 48 := 0
  cacheOvr : Bool := false
  cacheBusy : Bool := false
  cacheStuck : Bool := false
  lines : Tbl CLine := []
  clock : Nat := 0
  misses : List CMiss := []
  scrubctl : BitVec 32 := 0x1C#32
  cecnt : BitVec 32 := 0
  uecnt : BitVec 32 := 0
  starveBs : Bool := false
  starveSp : Bool := false
  starved : List Nat := []
  scrubPos : Tbl Nat := []
  scrubDue : List Nat := []
  ceDue : Bool := false
  bankq : Tbl (List Acc) := []
  waitq : List Acc := []
  bankLast : Tbl Nat := []
  jobs : Tbl Job := []
  jobSeq : Nat := 0
  cwait : List Acc := []
  cacheAdd : Option Nat := Option.none
  bg : List Acc := []
  bgLast : Tbl Nat := []
  ext : List Acc := []
  ctlIn : List Acc := []
  syncIn : List Acc := []
  sigs : Tbl Signal := []
  sigSeq : Nat := 0
  syncN : Nat := 0
  wdAcks : List Nat := []
  watchIn : List (Watch × Bool × BitVec 16) := []
  remoteIn : List Acc := []
  closing : List Closing := []
  admSeq : Nat := 0
  sync : Tbl (BitVec 32) := []
  rwatch : List Watch := []
  lwatch : List Watch := []
  wakes : List (Watch × Bool) := []
  fewatch : Tbl (Nat × Bool) := []
  expect : Nat := 0
  barIdx : Nat := 0
  gen : Bool := false
  early : Nat := 0
  count : Nat := 0
  childArr : List Nat := []
  barUp : Bool := false
  sigperm : BitVec 16 := 0
  dmaAlloc : Nat := 0
  chans : Tbl Chan := []
  dmaLast : Nat := 0
  dmaGone : List Nat := []
  dmaAns : List Ans := []
  dmaErrs : List (Nat × Nat) := []
  rlyTags : Tbl (Nat × Nat) := []
  engAns : List Ans := []
  niq : List Packet := []
  niLast : Nat := 0
  bufs : Tbl (List Packet) := []
  credits : Tbl Nat := []
  outLast : Tbl Nat := []
  owed : Tbl Nat := []
  ejq : Tbl (List Packet) := []
  bellIn : List (Nat × Doorbell) := []
  portIn : List (Nat × PortCmd) := []
  gone : List (Nat × Nat) := []
  wd : Tbl Nat := []
  engHold : List Nat := []
deriving DecidableEq, Repr

end Sys2Proof.Machine
end

