-- ==== Sys2Proof/Machine/StateUnits.lean ====
section
/-!
DEFINITION. The records of which State is made, for islands, piazza slots, ports, the network transport engines, the
command queues, partitions and the always-on island (chapters 02, 08 to 10, 11, 14 to 23).
-/

namespace Sys2Proof.Machine

/-- A memory region of an NTE slice (Table 15-8): the registers MRn_CTL to MRn_VAHI. -/
structure Region where
  ctl : BitVec 32 := 0
  loc : BitVec 32 := 0
  len : BitVec 32 := 0
  va : BitVec 64 := 0
deriving DecidableEq, Repr

/-- The connection settings of a queue pair (Table 15-2). -/
structure QpSet where
  mac : BitVec 48 := 0
  ip : BitVec 128 := 0
  v6 : Bool := false
  qpn : Nat := 0
  dscp : Nat := 0
  ttl : Nat := 0
  flow : Nat := 0
  sport : Nat := 0
  mtu : Nat := 256
  timeout : Nat := 0
  retry : Nat := 0
  rnrretry : Nat := 0
  rnrt : Nat := 0
  rddepth : Nat := 1
deriving DecidableEq, Repr

/-- A received packet that a slice has matched to one of its queue pairs: BTH opcode, PSN, AckReq, the CE mark, the RETH,
immediate and AETH where it has them, the payload. -/
structure RxPkt where
  qp : Nat
  op : Nat
  psn : Nat
  ackReq : Bool
  ce : Bool
  va : Nat := 0
  rkey : Nat := 0
  len : Nat := 0
  imm : Nat := 0
  syn : Nat := 0
  data : List (BitVec 8) := []
deriving DecidableEq, Repr

/-- A work request in progress (Table 15-3): its SQ count, its local buffer by block and offset, its fields, first PSN and
count of PSNs, response packets received (READ), and whether its completion ADD is on its way. -/
structure Work where
  idx : Nat
  op : Nat
  blk : Nat
  off : Nat
  raddr : Nat
  len : Nat
  rkey : Nat
  imm : Nat
  signal : Bool
  solicited : Bool
  syncid : Nat
  inc : Nat
  user : BitVec 64
  psn : Nat
  npkt : Nat
  got : Nat := 0
  adding : Bool := false
deriving DecidableEq, Repr

/-- A responder message that took an RQE (R370, R374): its RQ count, the RQE's place, its buffer, length and sync fields, bytes
received, opcode, immediate, last PSN, whether it has ended and what of its completion has been issued (0 none, 1 the
record, 2 the ADD). -/
structure Recv where
  idx : Nat
  rblk : Nat
  roff : Nat
  blk : Nat
  off : Nat
  len : Nat
  sync : Nat
  bytes : Nat := 0
  op : Nat := 0
  imm : Nat := 0
  psn : Nat := 0
  ended : Bool := false
  stage : Nat := 0
deriving DecidableEq, Repr

/-- An incoming WRITE between its packets: region, block, next offset, bytes left, bytes so far. -/
structure InWrite where
  mr : Nat
  blk : Nat
  off : Nat
  left : Nat
  got : Nat := 0
deriving DecidableEq, Repr

/-- What a responder has to send, in order: an ACK of a PSN, a NAK with its syndrome, or the packets of a READ response: first
PSN, region, block, offset, length, packets sent. -/
inductive Resp
  | ack (psn : Nat)
  | nak (psn syn : Nat)
  | read (psn mr blk off len sent : Nat)
deriving DecidableEq, Repr

/-- The payload of a packet that is being read from memory: responder's or requester's, PSN, bytes by position, the tags of
the reads outstanding. -/
structure SendBuf where
  resp : Bool
  psn : Nat
  data : Tbl (BitVec 8) := []
  wait : List Nat := []
deriving DecidableEq, Repr

/-- A queue pair (Tables 15-2, 15-7): registers, connection settings; as requester the next PSN to send, the oldest
unacknowledged and the next to assign, the count of work requests started, the WQE read ahead of its start, works in
progress, retries, timers; as responder the expected PSN, the message in progress, RQEs taken, what is to be sent; the rate
control of R379, with rates in bytes per second and alpha in units of 2^-32. -/
structure Qp where
  sqcfg : BitVec 32 := 0
  rqcfg : BitVec 32 := 0
  sqprod : BitVec 16 := 0
  sqcons : BitVec 16 := 0
  rqprod : BitVec 16 := 0
  rqcons : BitVec 16 := 0
  err : BitVec 32 := 0
  stat : Nat := 0
  code : BitVec 8 := 0
  fidx : BitVec 16 := 0
  set : QpSet := {}
  spsn : Nat := 0
  una : Nat := 0
  nextPsn : Nat := 0
  sqNext : BitVec 16 := 0
  wqe : Option (List (BitVec 8)) := none
  wqeRd : Bool := false
  works : List Work := []
  retryLeft : Nat := 0
  rnrLeft : Nat := 0
  timer : Option Nat := none
  rnrAt : Option Nat := none
  epsn : Nat := 0
  nakd : Bool := false
  msn : Nat := 0
  unackd : Nat := 0
  rqNext : BitVec 16 := 0
  rqe : Option (List (BitVec 8)) := none
  rqeRd : Bool := false
  inSend : Bool := false
  inWrite : Option InWrite := none
  recvs : List Recv := []
  out : List Resp := []
  buf : Option SendBuf := none
  rc : Nat := 0
  rt : Nat := 0
  alpha : Nat := 0
  bytesSince : Nat := 0
  stage : Nat := 0
  taAt : Nat := 0
  tiAt : Nat := 0
  cnpAt : Option Nat := none
  cnpTx : Option Nat := none
  cnpDue : Bool := false
  paceAt : Nat := 0
deriving DecidableEq, Repr

/-- What an access of a slice is for: a placement through a region or into a receive buffer, a READ source, a WQE, an RQE, a
send source, a completion record, a READ response placement, the ADD of the send or of the receive queue, or nothing any
more. -/
inductive NteUse | place | recv | readSrc | wqe | rqe | src | record | resp | sqAdd | rqAdd | orphan
deriving DecidableEq, Repr

/-- An access of a slice whose answer is outstanding: its number, its tag on the mesh once it has one (R310), QP, use, PSN, place in its buffer, region (128: none), target
block, the access, times it lost. -/
structure NteAcc where
  tag : Nat
  qp : Nat
  use : NteUse
  psn : Nat
  pos : Nat := 0
  mr : Nat := 128
  dst : Nat
  acc : Acc
  tries : Nat := 0
  wire : Option Nat := none
deriving DecidableEq, Repr

/-- The NTE slice of an island (chapter 15): endpoint settings, allotment, drops, regions, queue pairs, accesses in flight,
region closes that wait (R373), received packets, the round-robin pointer and the pace of R379. -/
structure Nte where
  mac : BitVec 48 := 0
  vlan : Nat := 0
  pcp : Nat := 0
  ip4 : BitVec 32 := 0
  ip6 : BitVec 128 := 0
  qalloc : Nat := 0
  malloc : Nat := 0
  drop : BitVec 32 := 0
  mrs : Tbl Region := []
  qps : Tbl Qp := []
  accs : List NteAcc := []
  closing : List (Acc × List Nat) := []
  rxq : List RxPkt := []
  last : Nat := 511
  paceAt : Nat := 0
deriving DecidableEq, Repr

/-- An island's control stop: ownership and policy (R404 to R412), waiting and parking (R201 to R203), bindings (R286), the
regulator and ageing registers of chapter 20 (slow: 50 µs intervals and steps by operating point; quiet: the tick of the last
slew, park change, alert or brown-out hold; capped: the operating points reported as MARGIN_CAPPED, R489), the counters of R497
with their latches (evSeen: the event counters whose event has occurred since the last step), self-test (R510 to R515; stDrop: the
running test has been given up), its NTE slice. -/
structure Island where
  caughtUp : Bool := true
  capped : List Nat := []
  phase : BitVec 5 := 0
  present : Bool := false
  powered : Bool := false
  brown : Bool := false
  brownTick : Nat := 0
  brownFails : Nat := 0
  own : BitVec 32 := 0
  wpolicy : BitVec 32 := 7#32
  waitctl : BitVec 32 := 0x800007D0#32
  parked : Bool := false
  waitacc : BitVec 32 := 0
  waitRun : Nat := 0
  waitedAll : Bool := false
  sbind : Tbl (BitVec 32) := []
  grant : Nat := 0
  cur : Nat := 0
  cap : Nat := 7
  slew : Bool := false
  mdcode : Nat := 0
  ventry : Tbl Nat := []
  vceil : Tbl Nat := []
  sent : Tbl (BitVec 32) := []
  droopcnt : BitVec 32 := 0
  slow : Tbl (Nat × Nat) := []
  quiet : Nat := 0
  opmax : Nat := 7
  nopark : Bool := false
  pin : Bool := false
  sigs : Tbl Nat := []
  waitMs : List (Nat × BitVec 32) := []
  waitSt : Nat × BitVec 32 := (0, 0)
  cnt : Tbl (BitVec 64) := []
  cntSat : List Nat := []
  evSeen : List Nat := []
  cntHi : Tbl (BitVec 32) := []
  cleared : Bool := false
  ordered : Bool := false
  stRun : Option (Nat × Nat) := none
  stLast : Option Nat := none
  stTime : BitVec 64 := 0
  stRes : Nat := 4
  stQueued : Nat := 0
  stBad : Bool := false
  stDrop : Bool := false
  nte : Nte := {}
deriving DecidableEq, Repr

/-- The owning partition of an island, 0xFF for none (ISLOWN, Table 17-3). -/
def Island.part (i : Island) : Nat := if i.own.getLsbD 31 then i.own.toNat / 2 ^ 24 % 16 else 0xFF

/-- What a Piazza ISA instruction does to the accumulators (R242): a matrix operation, ACCZ or ACCLD, another reader. -/
inductive AccUse where
  | none | matrix | writes | reads
deriving DecidableEq, Repr

/-- What a Piazza ISA instruction uses beside the scalar sources it reads at issue (R214, R249, R268): tile registers and
chain slots read and written, the g register written, its part in the accumulators, the PAMAX it updates. -/
structure PUse where
  tiles : List Nat := []
  outTiles : List Nat := []
  chain : Option Nat := .none
  outChain : Option Nat := .none
  rd : Option (BitVec 6) := .none
  acc : AccUse := .none
  amax : List Nat := []
deriving DecidableEq, Repr

/-- A Piazza ISA instruction in flight (R214, R222): its engine (0 matrix, 1 vector, 2 reduction), the PFLAGS bits it
delivers at the end of its count, what it uses, and the index of the register that its rd names. -/
structure PFly where
  engine : Nat
  flags : BitVec 11 := 0
  use : PUse := {}
  reg : Option Nat := none
deriving DecidableEq, Repr

/-- A chain slot of the vector engine (R261): VALID and the 64 bytes of its descriptor. -/
structure ChainSlot where
  valid : Bool := false
  desc : List (BitVec 8) := []
deriving DecidableEq, Repr

/-- A piazza slot (chapters 08 to 10): requested and active mode, LMB, lane power, instructions in flight, length
registers, chain slots, PAMAX accumulators, lane flags by lane, matrix masks and scale base. Tile registers lie in the
lanes' f registers and the sub-tiles in their accumulators (R205). -/
structure Slot where
  reqPz : Bool := false
  active : Bool := false
  lmb : Nat := 0
  asleep : Bool := true
  awake : Bool := false
  waking : Bool := false
  fly : List PFly := []
  vlr : Nat := 64
  vlc : Nat := 512
  chains : Tbl ChainSlot := []
  pamax : Tbl (BitVec 64) := []
  lflags : Tbl (BitVec 5) := []
  mrow : BitVec 256 := BitVec.allOnes 256
  mcol : BitVec 256 := BitVec.allOnes 256
  mscb : BitVec 64 := 0
deriving DecidableEq, Repr

/-- A variant of an image (Table 16-7). -/
structure Variant where
  dims : List Nat
  entc : Nat
  climc : Nat
  trbc : Nat
  entp : Nat
  climp : Nat
  trbp : Nat
  map : Nat
deriving DecidableEq, Repr

/-- A segment of an image (Table 16-8). -/
structure Segment where
  src : Nat
  len : Nat
  dkind : Nat
  vmask : Nat
  sel : Nat
  doff : Nat
deriving DecidableEq, Repr

/-- A resource entry of an image (Table 16-9). -/
structure Resource where
  type : Nat
  vmask : Nat
  sel : Nat
  a : Nat
  b : Nat
  c : Nat
deriving DecidableEq, Repr

/-- A loaded image (Tables 16-5 to 16-9). -/
structure Image where
  base : Nat
  kind : Nat
  ndim : Nat
  lmb : Nat
  len : Nat
  digest : List (BitVec 8)
  vars : List Variant
  segs : List Segment
  ress : List Resource
deriving DecidableEq, Repr

/-- A partition (chapters 16, 17, 19, 22): PARTDEF, OPEN and LOST, keys, dump sequence and copy region, image with its usable
variants, the context (0 none, 1 RUNNING, 2 ENDED) with its ticks, outcome and variant, debug state. -/
structure Part where
  pdef : BitVec 32 := 0
  isOpen : Bool := false
  lost : Bool := false
  fenced : Bool := false
  dumpkey : List (BitVec 8) := []
  imgkeyen : Bool := false
  imgkey : List (BitVec 8) := []
  dseq : Nat := 0
  copyBase : Option Nat := none
  copyPos : Nat := 0
  copySeq : Nat := 0
  image : Option Image := none
  usable : Nat := 0
  run : Nat := 0
  launchT : BitVec 64 := 0
  endTick : BitVec 64 := 0
  outcome : Nat := 0
  variant : Nat := 0
  shape : List Nat := []
  debug : Bool := false
  nonce : Option (List (BitVec 8) × Nat) := none
  dbgFails : Nat := 0
  dbgUntil : Option Nat := none
deriving DecidableEq, Repr

/-- A command item (Table 16-1) in a queue: the packet port it came by, its bytes, its place of arrival, the tick of its
acceptance, whether it has started, whether a TIMEOUT reply has gone out (R389), whether its work is under way. -/
structure Item where
  port : Nat
  bytes : List (BitVec 8)
  seq : Nat
  tick : Nat
  started : Bool := false
  answered : Bool := false
  going : Bool := false
deriving DecidableEq, Repr

/-- A beat in the replay order of a stream port: data, its count since the port came UP, the half that a transfer at width 128
carries (0 whole, 1 low, 2 high), resume mark, sent before (R336, R352). -/
structure Sent where
  data : BitVec 256
  n : Nat
  half : Nat := 0
  mark : Bool := false
  again : Bool := false
deriving DecidableEq, Repr

/-- A data frame of a packet port (R338): SEQ, virtual channel, END, payload flits. -/
structure Frame where
  seq : BitVec 12
  vc : Nat
  last : Bool
  fl : List (BitVec 256)
deriving DecidableEq, Repr

/-- The link record of a port's bundles (R350): code, spares of the inbound and outbound bundle, the partner's capability beat,
the negotiated subset. -/
structure LinkRec where
  code : Nat
  spares : Tbl (BitVec 8)
  sparesO : Tbl (BitVec 8) := []
  peer : BitVec 256
  sub : List Nat
deriving DecidableEq, Repr

/-- A port, 0 to 159 stream and 160 to 171 packet (chapters 11, 14): link registers, training, retry counts, the outbound
wires, and the stream engine's or the frame layer's state. -/
structure Port where
  st : Nat := 0
  cause : Nat := 0
  leader : Bool := false
  chk : Bool := false
  w128 : Bool := false
  stale : Bool := false
  saved : Bool := false
  vmaj : Nat := 0
  vmin : Nat := 0
  win : Nat := 0
  gap : Nat := 0
  full : Bool := false
  code : Nat := 0
  whi : Nat := 0
  wlo : Nat := 0
  mdays : Nat := 0
  spares : Tbl (BitVec 8) := []
  sparesO : Tbl (BitVec 8) := []
  crcerr : BitVec 32 := 0
  replay : BitVec 32 := 0
  lretry : BitVec 32 := 0x0FFF0008#32
  peer : BitVec 256 := 0
  ph : Nat := 0
  phTick : Nat := 0
  mine : Bool := false
  theirs : Bool := false
  cnt : Nat := 0
  lead : Bool := false
  wd : Nat := 0
  peerId : Option (BitVec 16) := none
  mark : Bool := false
  tsent : Nat := 0
  tn : Nat := 0
  tgap : Nat := 0
  prbs : BitVec 31 := 0
  swCnt : Tbl Nat := []
  swCur : Tbl Nat := []
  swBad : Tbl Nat := []
  swRuns : Nat := 0
  wasRetired : Bool := false
  sub : List Nat := []
  record : Option LinkRec := none
  consec : Nat := 0
  rate : Nat := 0
  dOut : BitVec 256 := 0
  xOut : BitVec 8 := 0
  kOut : BitVec 8 := 0
  frameO : Bool := false
  reqO : Bool := false
  ackO : Bool := false
  nakO : Bool := false
  outq : List (BitVec 256) := []
  unans : List Sent := []
  resend : List Sent := []
  dropAns : Nat := 0
  outHalf : Option Sent := none
  rxHalf : Option (BitVec 128) := none
  txN : Nat := 0
  rxN : Nat := 0
  rx : List (BitVec 256) := []
  disc : Bool := false
  mirLo : Nat := 0
  mirHi : Nat := 63
  mirSeen : Nat := 0
  prLo : Option Nat := none
  prHi : Option Nat := none
  prStep : Nat := 0
  lastBlk : Nat := 319
  tags : Tbl PortCmd := []
  gone : List Nat := []
  seq : BitVec 12 := 0
  vcq : Tbl (List (List (BitVec 8))) := []
  unacked : List Frame := []
  refr : List Frame := []
  ackBase : BitVec 12 := 0
  lastVc : Nat := 3
  cred : Tbl Nat := []
  credSeen : Tbl Nat := []
  freed : Tbl Nat := []
  exp : BitVec 12 := 0
  rdisc : Bool := false
  ackDue : Bool := false
  nakDue : Bool := false
  lastRep : Option (BitVec 12) := none
  rep : Option (BitVec 12 × Nat) := none
  part3 : Bool := false
  asm : Tbl (List (BitVec 256)) := []
  dropMsg : List Nat := []
  inbox : Tbl (List (List (BitVec 8))) := []
  bells : List Doorbell := []
  bellSeq : BitVec 16 := 0
deriving DecidableEq, Repr

/-- What a trace entry reports (R522). -/
inductive TraceKind | trap | intr | phase | pfault | halt | resume
deriving DecidableEq, Repr

/-- A trace entry: package time, core, kind, cause code and TRPC; or a marker with the count of dropped entries. -/
inductive TraceEnt
  | ev (time : BitVec 64) (cob : Nat) (kind : TraceKind) (data : BitVec 40)
  | marker (time : BitVec 64) (dropped : Nat)
deriving DecidableEq, Repr

/-- The trace (R521 to R523): whose it is, whether it runs and wraps, its entries oldest first, the tick of the last
accepted entry, entries dropped since, units of the dump store it may hold, whether units were given up, the dump sequence
number and package time of its start, whether it has been copied out (R466). -/
structure Trace where
  part : Option Nat := none
  running : Bool := false
  wrap : Bool := false
  ents : List TraceEnt := []
  lastTick : Option Nat := none
  dropped : Nat := 0
  units : Nat := 32
  trunc : Bool := false
  seq : Nat := 0
  start : BitVec 64 := 0
  approx : Bool := false
  copied : Bool := false
deriving DecidableEq, Repr

/-- A record of the error log (Table 21-1). -/
structure LogRec where
  seq : BitVec 32
  time : BitVec 64
  event : Nat
  flags : Nat
  part : Nat
  kind : Nat
  id : Nat
  coal : Nat
  data : List Nat
  sent : Bool := false
  copied : Bool := false
deriving DecidableEq, Repr

/-- A record of the dump store (R461, R462): its kind, partition, tenant, sequence number, the whole record as bytes. -/
structure DumpRec where
  kind : Nat
  part : Nat
  tenant : BitVec 16
  seq : Nat
  copied : Bool := false
  bytes : List (BitVec 8)
deriving DecidableEq, Repr

/-- A partition of a plan (R402): slot columns, halves, debug policy, tenant, slot modes by partition-relative slot, WPOLICY of its islands
in island order. -/
structure PlanPart where
  sx0 : Nat
  sx1 : Nat
  halves : Nat
  dbgen : Bool
  tenant : BitVec 16
  modes : Nat
  wpol : List (BitVec 32)
deriving DecidableEq, Repr

/-- A suspect of a guilty-party search (R457): engine (0 DMA, 1 stream, 2 cache, 3 NTE), the block of the engine, the block and
channel, cobble or QP of the work context (channel 16: a cache engine; cobble 256: a CACHEOP), its verdict (0 held, 1 in
replay, 2 cleared, 3 guilty, 4 unresolved, 5 guilty with its end due), the work that was in flight and whether all of it may be replayed. -/
structure Suspect where
  engine : Nat
  eblk : Nat
  blk : Nat
  id : Nat
  verdict : Nat := 0
  descs : List Desc := []
  accs : List Acc := []
  idem : Bool := true
deriving DecidableEq, Repr

/-- The saved-settings record (R425): link records by port, voltage entries, codes and caps by island, soft repairs (block,
column; column 17: the block; block 320 and up: seam direction × 16 + group, wire), the start that wrote it. -/
structure SavedRec where
  links : Tbl LinkRec
  ventry : Tbl Nat
  mdcode : Tbl Nat
  cap : Tbl Nat
  repairs : List (Nat × Nat)
  time : BitVec 64
  warm : Bool
deriving DecidableEq, Repr

/-- What a recovery action or a change of a partition does (Tables 19-2 and 16-4). -/
inductive ActKind | switch | reset | block | cobble | engine | open | close
deriving DecidableEq, Repr

/-- A recovery action or change of a partition in progress (R404, R444 to R451): its kind, partition, unit (block, cobble, or
block × 4 + engine), phase, the tick at which the phase began, the package time of its start, the command item it answers, resets tried, the ladder level
and cause for its records, the poisoned words that its scratch sample met. -/
structure Action where
  kind : ActKind
  part : Nat
  unit : Nat := 0
  phase : Nat := 0
  tick : Nat
  time : BitVec 64 := 0
  item : Option Nat := none
  tries : Nat := 0
  level : Nat
  cause : Nat
  words : List Nat := []
deriving DecidableEq, Repr

/-- What a service-ring message carries: a register write of a block (space 0) or an island (1), or a clear order. -/
inductive RingOp
  | write (space unit off value : Nat)
  | clear
deriving DecidableEq, Repr

/-- A service-ring message: its partition tag (0 to 9, or 15 for the firmware's own traffic), the island of its control stop and
what it carries (R412). -/
structure RingMsg where
  tag : Nat
  isl : Nat
  op : RingOp
deriving DecidableEq, Repr

/-- The always-on island and what it keeps (chapters 02, 16 to 23): signals and straps, start, protection registers, firmware,
management watchdog, ATTN_N, timebase, power, log store, dump store, test access. `nv…` fields stand for what the package
non-volatile store holds for the die. `ringq` holds the messages that wait at the service ring's master stop, `ringLast` the tag
served last, `ringStops` and `ringSegs` the control stops (by island) and segments out of service (R28, R412); `wstat` is the
status that the management core's last register write returned (R13); `resetDue` the partitions whose reset waits for an action
that runs (R325, R446). -/
structure Aon where
  ringq : List RingMsg := []
  ringLast : Nat := 15
  ringStops : BitVec 10 := 0
  ringSegs : BitVec 11 := 0
  wstat : Nat := 0
  resetDue : List Nat := []
  pwrgood : Bool := true
  resetN : Bool := true
  alertN : Bool := true
  thermTrip : Bool := false
  pkgclass : BitVec 2 := 0
  testmode : Bool := false
  stage : Nat := 1
  stuck : Bool := false
  startTick : Nat := 0
  stageTick : Nat := 0
  warm : Bool := false
  startUs : Nat := 0
  bootph : BitVec 2 := 0
  lockviol : BitVec 32 := 0
  srcfg : BitVec 32 := 8#32
  fw : Nat := 0
  fwver : Nat := 0
  bcver : Nat := 0
  secver : Nat := 0
  bcDigest : List (BitVec 8) := []
  fwDigest : List (BitVec 8) := []
  cdi0 : List (BitVec 8) := []
  cdi1 : List (BitVec 8) := []
  remain : Nat := 100000
  restarts : Nat := 0
  lastRestart : Option Nat := none
  attn : BitVec 8 := 0
  attnLast : Nat := 0
  attn5 : Nat := 0
  attnSent : Nat := 0
  unreach : Option (Nat × BitVec 64) := none
  nvFw : Option (List (BitVec 8) × Nat × Nat) := none
  tbValid : Bool := false
  tbLost : Bool := false
  lostcnt : BitVec 16 := 0
  edges : Bool := false
  counting : Bool := false
  holdTo : Option (BitVec 64) := none
  pkHi : BitVec 32 := 0
  sustained : Nat := 0
  peak : Nat := 0
  reads : List Nat := []
  lastRead : Option Nat := none
  readSeq : BitVec 16 := 0
  readPort : Nat := 10
  missing : Nat := 0
  infeasible : Bool := false
  energy : BitVec 64 := 0
  energyRem : Nat := 0
  energyHi : BitVec 32 := 0
  energyMiss : BitVec 32 := 0
  statSeq : BitVec 16 := 0
  statTick : Nat := 0
  statFlags : Nat := 0
  alertcnt : BitVec 16 := 0
  alertAt : BitVec 64 := 0
  alertRel : Option Nat := none
  replanTick : Nat := 0
  log : List LogRec := []
  logseq : BitVec 32 := 0
  loglost : BitVec 32 := 0
  dumps : List DumpRec := []
  ttrunc : Bool := false
  stctl : BitVec 32 := 0x18#32
  trip : Bool := false
  maxt : Nat := 0
  tnow : Nat := 0
  hotsrc : Nat := 0
  vinn : Bool := false
  vins : Bool := false
  vaon : Bool := true
  vfuse : Bool := false
  plan : List PlanPart := []
  omitted : List Nat := []
  nvPlan : List PlanPart := []
  nvSaved : Option SavedRec := none
  nvStage : Tbl (BitVec 8) := []
  nvFailed : List Nat := []
  nvAge : Tbl (List (BitVec 8)) := []
  ageLast : List (BitVec 8) := []
  ageSeq : Nat := 0
  repairs : List (Nat × Nat) := []
  soft : List (Nat × Nat) := []
  rejected : Bool := false
  acts : List Action := []
  susp : List Suspect := []
  engHangs : List (Nat × Nat × Nat) := []
  tapIr : BitVec 8 := 0x01#8
  tapDr : List Bool := []
  bsr : List Bool := []
  tapOut : List Bool := []
  fuseFail : Bool := false
deriving DecidableEq, Repr

/-- An open slot of the log engine (R495): source kind and ID, first event, its package time and DATA, the count of
coalesced events, MIXED. -/
structure LogSlot where
  kind : Nat
  id : Nat
  event : Nat
  time : BitVec 64
  approx : Bool
  part : Nat
  data : List Nat
  coal : Nat
  mixed : Bool
deriving DecidableEq, Repr

end Sys2Proof.Machine
end

