-- ==== Sys2Proof/Machine/State.lean ====
section
/-!
DEFINITION. The whole state of the die, the reasons a step can stop, and the state after reset.
-/

namespace Sys2Proof.Machine

/-- Why a step stops. -/
inductive Fault
  /-- Raised by every meaning whose command names a unit that Table 01-1 and Table 00-2 do not give the die (cobble
  81,920 and up, block 320 and up …). Safe: such a unit does not exist, so no event of the hardware is cut off. -/
  | noSuchUnit (unit : String) (n : Nat)
deriving DecidableEq, Repr

/-- Why a command has no meaning. -/
inductive Refusal
  /-- Raised by exec's arm of a command that has no meaning yet. Safe: the model stops where the hardware goes on. -/
  | notModelled (mnemonic : String)
deriving DecidableEq, Repr

/-- The state of the die. -/
structure State where
  pending : List Instr := []
  freeCtr : Nat := 0
  ticks : Nat := 0
  pktime : BitVec 64 := 0
  pkPrev : BitVec 64 := 0
  approx : Bool := true
  mem : List Host.Cell := []
  fe : Tbl Bool := []
  psn : Tbl Bool := []
  upset : Tbl Nat := []
  corr : List Nat := []
  poisonDue : List Nat := []
  pos : BitVec 6 := 0
  cobs : Tbl Cobble := []
  blks : Tbl Block := []
  isls : Tbl Island := []
  slots : Tbl Slot := []
  parts : Tbl Part := []
  ports : Tbl Port := []
  queues : Tbl (List Item) := []
  itemSeq : Nat := 0
  fuses : Tbl Nat := []
  aon : Aon := {}
  logSlots : List LogSlot := []
  trace : Trace := {}
  cethr : Nat := 10
  satDue : List (Nat × Nat × Nat) := []
deriving DecidableEq, Repr

/-- The machine right after reset: PWRGOOD has just risen and start stage 1 runs (notes/assumptions/2.md). -/
def State.reset : State := {}

end Sys2Proof.Machine
end

