-- ==== Sys2Proof/Machine/Ops.lean ====
section
/-!
DEFINITION. The named operations over tables, memory, registers and units that every meaning uses: canonical memory,
poison and check-bit outcomes (R139, R163, R164), the error log's slots (R495), trap entry and return (R103), the
boundary conditions of issue (R81, R103 to R105, R538).
-/

namespace Sys2Proof.Machine

/-- The answer of a meaning. -/
abbrev Res := Host.Outcome State Fault Refusal

/-! ## Tables -/

/-- The value under a key, or the default. -/
def lget {α : Type} (d : α) : Tbl α → Nat → α
  | [], _ => d
  | (k', v) :: t, k => if k = k' then v else lget d t k

/-- Writes a key, keeping the keys rising. -/
def lset {α : Type} : Tbl α → Nat → α → Tbl α
  | [], k, v => [(k, v)]
  | (k', v') :: t, k, v =>
    if k < k' then (k, v) :: (k', v') :: t
    else if k = k' then (k, v) :: t
    else (k', v') :: lset t k v

/-- Writes a key in canonical form: the default is not listed. -/
def cset {α : Type} [DecidableEq α] (d : α) : Tbl α → Nat → α → Tbl α
  | [], k, v => if v = d then [] else [(k, v)]
  | (k', v') :: t, k, v =>
    if k < k' then (if v = d then (k', v') :: t else (k, v) :: (k', v') :: t)
    else if k = k' then (if v = d then t else (k, v) :: t)
    else (k', v') :: cset d t k v

/-- Canonical form from a lower bound: keys rising, no entry equal to the default. -/
def canonFrom {α : Type} [DecidableEq α] (d : α) : Nat → Tbl α → Bool
  | _, [] => true
  | lo, (k, v) :: t => decide (lo ≤ k) && decide (v ≠ d) && canonFrom d (k + 1) t

/-- Keeps the entries whose key satisfies a test. -/
def lfilter {α : Type} (p : Nat → Bool) (t : Tbl α) : Tbl α := t.filter (fun e => p e.1)

/-! ## Numbers and bytes -/

/-- The `n` bytes of a number, little-endian. -/
def toBytes : Nat → Nat → List Byte
  | 0, _ => []
  | n + 1, x => BitVec.ofNat 8 x :: toBytes n (x / 256)

/-- The number that bytes spell, little-endian. -/
def ofBytes : List Byte → Nat
  | [] => 0
  | b :: bs => b.toNat + 256 * ofBytes bs

/-- Bits hi … lo of a number, `n` of them from `lo`. -/
def bits (x lo n : Nat) : Nat := x / 2 ^ lo % 2 ^ n

def bit (x i : Nat) : Bool := x / 2 ^ i % 2 == 1

/-- A byte mask with the low `n` bits set. -/
def maskN (n : Nat) : Nat := 2 ^ n - 1

def boolNat (b : Bool) : Nat := if b then 1 else 0

/-- Adds 1 to a saturating register. -/
def satInc {w : Nat} (x : BitVec w) : BitVec w := if x = BitVec.allOnes w then x else x + 1

def insertNat (x : Nat) (l : List Nat) : List Nat := if x ∈ l then l else l ++ [x]

/-! ## Units (Table 01-1) -/

def nCobbles : Nat := 81920
def nBlocks : Nat := 320

def blkOf (c : Nat) : Nat := c / 256
def bxOf (b : Nat) : Nat := b % 20
def byOf (b : Nat) : Nat := b / 20
/-- Island of a block: h × 5 + sx. -/
def islOfBlk (b : Nat) : Nat := (byOf b / 8) * 5 + bxOf b / 4
/-- Slot of a block: sy × 5 + sx. -/
def slotOfBlk (b : Nat) : Nat := (byOf b / 4) * 5 + bxOf b / 4
def islOf (c : Nat) : Nat := islOfBlk (blkOf c)
/-- Slot-local block index j of R148. -/
def slotIdx (b : Nat) : Nat := 4 * (byOf b % 4) + bxOf b % 4
/-- Block of slot-local index j. -/
def blkOfSlot (k j : Nat) : Nat := ((k / 5) * 4 + j / 4) * 20 + (k % 5) * 4 + j % 4
/-- The control cobble of a slot (R30): logical cobble (0,0). -/
def ctlCobble (k : Nat) : Nat := blkOfSlot k 0 * 256

def State.cob (s : State) (c : Nat) : Cobble := lget {} s.cobs c
def State.setCob (s : State) (c : Nat) (k : Cobble) : State := { s with cobs := lset s.cobs c k }
def State.blk (s : State) (b : Nat) : Block := lget {} s.blks b
def State.setBlk (s : State) (b : Nat) (k : Block) : State := { s with blks := lset s.blks b k }
def State.isl (s : State) (i : Nat) : Island := lget {} s.isls i
def State.setIsl (s : State) (i : Nat) (k : Island) : State := { s with isls := lset s.isls i k }
def State.modCob (s : State) (c : Nat) (f : Cobble → Cobble) : State := s.setCob c (f (s.cob c))
def State.modBlk (s : State) (b : Nat) (f : Block → Block) : State := s.setBlk b (f (s.blk b))
def State.modIsl (s : State) (i : Nat) (f : Island → Island) : State := s.setIsl i (f (s.isl i))

def State.port (s : State) (p : Nat) : Port := lget {} s.ports p
def State.setPort (s : State) (p : Nat) (k : Port) : State := { s with ports := lset s.ports p k }
def State.modPort (s : State) (p : Nat) (f : Port → Port) : State := s.setPort p (f (s.port p))

def State.partn (s : State) (p : Nat) : Part := lget {} s.parts p
def State.modPart (s : State) (p : Nat) (f : Part → Part) : State := { s with parts := lset s.parts p (f (s.partn p)) }

def State.modAon (s : State) (f : Aon → Aon) : State := { s with aon := f s.aon }

/-- The slot of a cobble. -/
def State.slotOf (s : State) (c : Nat) : Slot := lget {} s.slots (slotOfBlk (blkOf c))
def State.modSlot (s : State) (k : Nat) (f : Slot → Slot) : State :=
  { s with slots := lset s.slots k (f (lget {} s.slots k)) }

/-- A brown-out hold stops every stage of its island until the voltage returns (R481). -/
def State.stage (s : State) (i : Nat) (f : State → State) : State := if (s.isl i).brown then s else f s

/-- A command about cobble `c`: the effect where the cobble exists. -/
def onCob (c : Nat) (s : State) (f : State → State) : Res :=
  if c < nCobbles then .next (f s) else .fault (.noSuchUnit "cobble" c)

/-- A command about a stage of block `b`. -/
def onBlk (b : Nat) (s : State) (f : State → State) : Res :=
  if b < nBlocks then .next (s.stage (islOfBlk b) f) else .fault (.noSuchUnit "block" b)

/-- A command about port `p`: 0 to 159 stream, 160 to 171 packet. -/
def onPort (p : Nat) (s : State) (f : State → State) : Res :=
  if p < 172 then .next (f s) else .fault (.noSuchUnit "port" p)

/-- A command about stream port `p`, or about packet port `p`, which is port 160 + p. -/
def onSp (p : Nat) (s : State) (f : State → State) : Res :=
  if p < 160 then .next (s.stage (p / 16) f) else .fault (.noSuchUnit "stream port" p)
def onPp (p : Nat) (s : State) (f : State → State) : Res :=
  if p < 12 then .next (if p < 10 then s.stage p f else f s) else .fault (.noSuchUnit "packet port" p)

def onIsl (i : Nat) (s : State) (f : State → State) : Res :=
  if i < 10 then .next (f s) else .fault (.noSuchUnit "island" i)

/-- An event of counter EVn has occurred in the current step of an island (Table 21-3). -/
def State.see (s : State) (i n : Nat) : State := s.modIsl i (fun k => { k with evSeen := insertNat n k.evSeen })

/-- Draws the next free value. -/
def State.draw (s : State) : BitVec 64 × State :=
  (Config.freeValue s.freeCtr, { s with freeCtr := s.freeCtr + 1 })

/-! ## Package time (R49 to R51) -/

/-- The shadow of package time at an island's control stop (R50): it lags by one value until it has caught up. -/
def State.shadow (s : State) (i : Nat) : BitVec 64 := if (s.isl i).caughtUp then s.pktime else s.pkPrev

/-! ## The error log's slots (R495) -/

/-- An event of a source (SRCKIND, ID): opens the source's slot, or counts in the open one. `data` lists the fields that
Table 21-2 names for the event. -/
def State.logEvent (s : State) (kind id event part : Nat) (data : List Nat) : State :=
  let same := fun (l : LogSlot) => l.kind == kind && l.id == id
  if s.logSlots.any same then
    { s with logSlots := s.logSlots.map (fun l =>
        if same l then
          { l with coal := l.coal + 1, mixed := l.mixed || l.event != event }
        else l) }
  else
    { s with logSlots := s.logSlots ++
        [{ kind := kind, id := id, event := event, time := s.pktime, approx := s.approx, part := part,
           data := data, coal := 0, mixed := false }] }

/-- Partition of a block, 0xFF for none. -/
def State.partOfBlk (s : State) (b : Nat) : Nat := (s.isl (islOfBlk b)).part

/-- An event whose source is a block (SRCKIND 2). -/
def State.logBlk (s : State) (b event : Nat) (data : List Nat) : State :=
  s.logEvent 2 b event (s.partOfBlk b) data

/-! ## Memory

One flat array holds every on-die store: cobble c's scratchpad from c × 16,384, then block b's block store from
`bsBase` + b × 2,097,152. Rows are 4 bytes in a scratchpad and 8 in a block store (R139). -/

def bsBase : Nat := 81920 * 16384
def scrAddr (c off : Nat) : Nat := c * 16384 + off
def bsAddr (b off : Nat) : Nat := bsBase + b * 2097152 + off

/-- Block whose counters a byte's errors increment. -/
def blkOfFlat (a : Nat) : Nat := if a < bsBase then a / 16384 / 256 else (a - bsBase) / 2097152

/-- Number of the row that holds a byte. -/
def rowOf (a : Nat) : Nat := if a < bsBase then a / 4 else bsBase / 4 + (a - bsBase) / 8

/-- Bytes of the row that holds a byte. -/
def rowLen (a : Nat) : Nat := if a < bsBase then 4 else 8

/-- First byte of the row that holds a byte. -/
def rowStart (a : Nat) : Nat := if a < bsBase then a / 4 * 4 else bsBase + (a - bsBase) / 8 * 8

/-- One byte of memory; an unlisted byte reads 0 (notes/assumptions/4.md). -/
def State.rd8 (s : State) (a : Nat) : Byte := lget 0 s.mem a

def State.rdN (s : State) : Nat → Nat → List Byte
  | _, 0 => []
  | a, n + 1 => s.rd8 a :: s.rdN (a + 1) n

/-- The canonical form of memory. -/
def Memory.wf (m : List Host.Cell) : Bool := canonFrom (0 : Byte) 0 m

def State.wr8 (s : State) (a : Nat) (v : Byte) : State := { s with mem := cset 0 s.mem a v }

/-- Rows touched by `n` bytes from `a`, as first byte addresses. -/
def rowsOf (a n : Nat) : List Nat :=
  if n = 0 then [] else
    let r := rowLen a
    let f := rowStart a
    (List.range ((a + n - 1 - f) / r + 1)).map (fun i => f + r * i)

/-- FE bit of the 32-bit word that holds a byte: true is full. -/
def State.feBit (s : State) (a : Nat) : Bool := lget false s.fe (a / 4)

/-- A saturating counter rises; reaching its maximum it is due to be logged (R499, R500). `n` numbers the counter. -/
def State.satLog {w : Nat} (s : State) (kind id n : Nat) (old new : BitVec w) : State :=
  if new = BitVec.allOnes w && old != new then { s with satDue := s.satDue ++ [(kind, id, n)] } else s

/-- CECNT counts a corrected error; a multiple of 2^CETHR is due to be logged (R163, R499). -/
def State.countCe (s : State) (b : Nat) : State :=
  let k := s.blk b
  let n := satInc k.cecnt
  (s.setBlk b { k with cecnt := n, ceDue := k.ceDue || (n != k.cecnt && n.toNat % 2 ^ s.cethr == 0) }).satLog 2 b 0 k.cecnt n

/-- The fields of an UNCORRECTABLE record: memory (0 block store, 1 scratchpad), bank, row, cobble, scrub. -/
def ueFields (a : Nat) (scrub : Bool) : List Nat :=
  if a < bsBase then [1, a % 16384 / 4 % 4, a % 16384 / 16, a / 16384 % 256, boolNat scrub]
  else let o := (a - bsBase) % 2097152; [0, o / 8 % 64, o / 512, 0, boolNat scrub]

/-- UECNT counts an uncorrectable error, which is logged (R163). -/
def State.countUe (s : State) (a : Nat) (scrub : Bool) : State :=
  let b := blkOfFlat a
  let k := s.blk b
  let n := satInc k.uecnt
  ((s.setBlk b { k with uecnt := n }).satLog 2 b 1 k.uecnt n).logBlk b 2 (ueFields a scrub)

/-- An uncorrectable error of a row is counted and logged once, at the access or scrub that first detects it, and waits to
be written as poison (R163, R164). -/
def State.detect (s : State) (st : Nat) (scrub : Bool) : State :=
  if st ∈ s.poisonDue then s
  else let s := s.countUe st scrub; { s with poisonDue := insertNat st s.poisonDue }

/-- One access reads a row (R163, R164): poison is silent; a correctable upset counts and waits for its write-back; an
uncorrectable one counts, is logged, waits to be written poisoned, and reads as poison. -/
def State.readRow (s : State) (a : Nat) (scrub : Bool := false) : Bool × State :=
  if lget false s.psn (rowOf a) then (true, s)
  else
    match lget 0 s.upset (rowOf a) with
    | 0 => (false, s)
    | 1 =>
      let s := s.countCe (blkOfFlat a)
      (false, { s with corr := insertNat (rowStart a) s.corr })
    | _ => (true, s.detect (rowStart a) scrub)

/-- A corrected row is written back: its upset is gone (R163). -/
def State.fixRow (s : State) (row : Nat) : State :=
  { s with upset := cset 0 s.upset (rowOf row) 0, corr := s.corr.filter (· != row) }

def State.readRows (s : State) : List Nat → Bool × State
  | [] => (false, s)
  | a :: as =>
    let (p, s) := s.readRow a
    let (q, s) := s.readRows as
    (p || q, s)

/-- A read of `n` bytes: the data, whether any row is poisoned, and the counters' state. -/
def State.readMem (s : State) (a n : Nat) : List Byte × Bool × State :=
  let (p, t) := s.readRows (rowsOf a n)
  (s.rdN a n, p, t)

/-- Writes the bytes whose mask bit is 1. -/
def State.wrBytes (s : State) : Nat → Nat → List Byte → State
  | _, _, [] => s
  | a, m, v :: vs => (if m % 2 = 1 then s.wr8 a v else s).wrBytes (a + 1) (m / 2) vs

/-- A write reaches a row: a full write clears poison and upsets; a partial write reads the row first, so that it counts a
corrected error, stores a row with an uncorrectable error poisoned, and recomputes the check bits of any other; pending
write-backs of the row are cancelled (R96, R139, R163, R164). -/
def State.writeRow (s : State) (a : Nat) (full psn : Bool) : State :=
  let r := rowOf a
  let st := rowStart a
  let bad := psn || (!full && (lget false s.psn r || lget 0 s.upset r ≥ 2))
  let s := if full then s else (s.readRow st).2
  { s with psn := cset false s.psn r bad, upset := cset 0 s.upset r 0,
           corr := s.corr.filter (· != st), poisonDue := s.poisonDue.filter (· != st) }

/-- Is every byte of the row from `st` written by the mask over `n` bytes from `a`? And any? -/
def rowMask (a m n st len : Nat) : Nat :=
  (List.range len).foldl (fun acc i =>
    if a ≤ st + i && st + i < a + n && bit m (st + i - a) then acc + 1 else acc) 0

def State.writeRowsOf (s : State) (a m n : Nat) (psn : Bool) : List Nat → State
  | [] => s
  | st :: rs =>
    let w := rowMask a m n st (rowLen st)
    (if w = 0 then s else s.writeRow st (w == rowLen st) psn).writeRowsOf a m n psn rs

/-- A write of bytes under a mask, poisoned or not. -/
def State.writeMem (s : State) (a m : Nat) (d : List Byte) (psn : Bool := false) : State :=
  (s.writeRowsOf a m d.length psn (rowsOf a d.length)).wrBytes a m d

/-- Sets an FE bit and wakes who waits for it: the pipeline whose word it is, and the block's FE watches on the word
(R100, R176). -/
def State.setFe (s : State) (a : Nat) (v : Bool) : State :=
  let old := s.feBit a
  let s := { s with fe := cset false s.fe (a / 4) v }
  if a < bsBase then
    let c := a / 16384
    match (s.cob c).hold with
    | .fe w =>
      if w.tgt = 0 && w.phase = 0 && w.addr.toNat % 16384 / 4 = a % 16384 / 4 then
        s.modCob c (fun k => { k with hold := .fe { w with phase := 1 } })
      else s
    | _ => s
  else if old = v then s
  else
    let b := blkOfFlat a
    let off := (a - bsBase) % 2097152 / 4
    let k := s.blk b
    let hit := k.fewatch.filter (fun e => e.2.1 = off && e.2.2 = v)
    let s := s.setBlk b { k with fewatch := k.fewatch.filter (fun e => !(e.2.1 = off && e.2.2 = v)) }
    hit.foldl (fun s e =>
      s.modCob (b * 256 + e.1) (fun q =>
        match q.hold with
        | .fe w => if w.tgt = 1 && w.phase = 0 then { q with hold := .fe { w with phase := 1 } } else q
        | _ => q)) s

/-- FILL: the FE bit of every word in which a byte is written is set full (R178). -/
def State.fillWords (s : State) (a m n : Nat) : State :=
  let f := a / 4
  (List.range ((a + n + 3) / 4 - f)).foldl (fun s i =>
    if rowMask a m n ((f + i) * 4) 4 = 0 then s else s.setFe ((f + i) * 4) true) s

/-! ## Integer registers (R84 to R86) -/

/-- Place of set S[w] register i, and K[w] register i, in the file. -/
def setIdx (w i : Nat) : Nat := 16 + 8 * (w % 5) + i
def kIdx (w i : Nat) : Nat := 56 + 8 * (w % 5) + i

/-- The register that a 6-bit integer field names, or none where it is reserved (Table 04-2). -/
def regIdx (k : Cobble) (f : BitVec 6) : Option Nat :=
  let n := f.toNat
  if n < 16 then some n
  else if k.tw then
    if n < 40 then some (96 + (n - 16))
    else if n < 48 then some (setIdx (k.move + 4) (n - 40))
    else if n < 56 then some (kIdx k.move (n - 48))
    else none
  else if n < 24 then some (setIdx (k.top + 4) (n - 16))
  else if n < 32 then some (kIdx k.top (n - 24))
  else if n < 40 then some (setIdx k.top (n - 32))
  else none

/-- g0 reads as 0 and discards writes. -/
def Cobble.getIdx (k : Cobble) (i : Nat) : W64 := if i = 0 then 0 else lget 0 k.ints i
def Cobble.setIntIdx (k : Cobble) (i : Nat) (v : W64) : Cobble := if i = 0 then k else { k with ints := lset k.ints i v }

/-- Value of an integer register field. -/
def Cobble.int (k : Cobble) (f : BitVec 6) : W64 := k.getIdx ((regIdx k f).getD 0)
def Cobble.setInt (k : Cobble) (f : BitVec 6) (v : W64) : Cobble := k.setIntIdx ((regIdx k f).getD 0) v

/-- An f register, and its write. -/
def Cobble.fp (k : Cobble) (f : BitVec 6) : W64 := lget 0 k.fps f.toNat
def Cobble.fpN (k : Cobble) (n : Nat) : W64 := lget 0 k.fps n
def Cobble.setFpN (k : Cobble) (n : Nat) (v : W64) : Cobble := { k with fps := lset k.fps n v }
def Cobble.setFp (k : Cobble) (f : BitVec 6) (v : W64) : Cobble := k.setFpN f.toNat v

/-- A scalar FP32 write sets bits [63:32] to ones (R84). -/
def box32 (v : Nat) : W64 := BitVec.ofNat 64 (0xFFFFFFFF00000000 + v % 2 ^ 32)

/-- v register n: f4n in the low bits (R110). -/
def Cobble.vec (k : Cobble) (n : Nat) : Nat :=
  (k.fpN (4 * n)).toNat + 2 ^ 64 * (k.fpN (4 * n + 1)).toNat + 2 ^ 128 * (k.fpN (4 * n + 2)).toNat
    + 2 ^ 192 * (k.fpN (4 * n + 3)).toNat
def Cobble.setVec (k : Cobble) (n : Nat) (v : Nat) : Cobble :=
  (((k.setFpN (4 * n) (BitVec.ofNat 64 v)).setFpN (4 * n + 1) (BitVec.ofNat 64 (v / 2 ^ 64))).setFpN (4 * n + 2)
    (BitVec.ofNat 64 (v / 2 ^ 128))).setFpN (4 * n + 3) (BitVec.ofNat 64 (v / 2 ^ 192))

/-- Moves past the instruction. -/
def Cobble.adv (k : Cobble) : Cobble := { k with pc := k.pc + 4 }

/-- STATUS (Table 04-11). -/
def Cobble.status (k : Cobble) : W64 :=
  BitVec.ofNat 64 (4 * boolNat k.pz + 2 * boolNat k.tw + boolNat k.ie)

/-! ## Waiting (R201, R202) -/

/-- The operating point that an island's regulator is ordered to (R202, R479): OP0 under an alert or a thermal trip (R533), PARKOP while parked, else
the granted one. -/
def Island.target (k : Island) (alert : Bool) : Nat :=
  if alert then 0 else if k.parked then k.waitctl.toNat / 2 ^ 24 % 8 else k.grant

/-- The regulator of an island is ordered anew; a change of operating point slews (R37, R476). -/
def State.opMove (s : State) (i : Nat) : State :=
  s.modIsl i (fun k =>
    let t := k.target (!s.aon.alertN || s.aon.thermTrip)
    { k with cur := t, slew := k.slew || t != k.cur, quiet := if t != k.cur then s.ticks else k.quiet })

/-- A core's wait ends: the tick does not count as all-waiting, and a parked island returns to its granted point. -/
def State.endWait (s : State) (c : Nat) : State :=
  (s.modIsl (islOf c) (fun i => { i with
    waitedAll := false, waitRun := 0, parked := false, quiet := if i.parked then s.ticks else i.quiet })).opMove (islOf c)

/-- Is a core waiting? In WAIT or an FE wait, without a launched context, ended, or halted (R106, R201). -/
def Cobble.waits (k : Cobble) : Bool :=
  k.halted || k.run != .running ||
  match k.hold with
  | .waitInt => true
  | .fe _ => true
  | _ => false

/-! ## Blocks out of service (R31, R431, R432) -/

/-- Blocks out of service: fenced by the map, or in service after a defect, which the repair record keeps. -/
def State.outOfService (s : State) (b : Nat) : Bool :=
  let k := s.blk b
  k.fence || (k.rstFence && s.aon.repairs.any (fun e => e.1 == b))

/-- May a slot fuse: every block of it in service (R31)? -/
def State.fusable (s : State) (k : Nat) : Bool := (List.range 16).all (fun j => !s.outOfService (blkOfSlot k j))

/-! ## Engines (R441, R444, R457) -/

/-- An engine of a block makes progress: it issues a request or receives an answer (R441). -/
def State.engStep (s : State) (b e : Nat) : State := s.modBlk b (fun k => { k with wd := cset 0 k.wd e 0 })

/-- Is an engine fenced, with its block or alone? -/
def State.engOff (s : State) (b e : Nat) : Bool := let k := s.blk b; k.fence || k.rstFence || k.engHold.contains e

/-- Is a suspect this work context: a queue pair (`nte`) or a DMA channel of a block? -/
def Suspect.names (x : Suspect) (nte : Bool) (b id : Nat) : Bool := (x.engine == 3) == nte && x.engine != 2 && x.blk == b && x.id == id

/-- Is a work context a suspect (R457)? It starts nothing new. And is it held: not in replay? -/
def State.suspected (s : State) (nte : Bool) (b id : Nat) : Bool := s.aon.susp.any (fun x => x.names nte b id)
def State.suspHeld (s : State) (nte : Bool) (b id : Nat) : Bool := s.aon.susp.any (fun x => x.names nte b id && x.verdict != 1)

/-- The first tag from `t` on, modulo `m`, that is not in use. -/
def freshTag (used : List Nat) (m : Nat) : Nat → Nat → Nat
  | 0, t => t
  | n + 1, t => if used.contains t then freshTag used m n ((t + 1) % m) else t

/-! ## The trace (R521, R522) -/

/-- One event of a core: an entry in this tick, or one more dropped entry. A unit of the dump store holds 4,096 entries. -/
def State.traceEv (s : State) (c : Nat) (kind : TraceKind) (data : BitVec 40) : State :=
  let t := s.trace
  if !(t.running && t.part == some (s.partOfBlk (blkOf c))) then s
  else if t.lastTick = some s.ticks then { s with trace := { t with dropped := t.dropped + 1 } }
  else
    let e := if t.dropped = 0 then TraceEnt.ev s.pktime c kind data else .marker s.pktime t.dropped
    let room : Bool := t.ents.length < 4096 * t.units
    if room then { s with trace := { t with ents := t.ents ++ [e], lastTick := some s.ticks, dropped := 0 } }
    else if t.wrap then
      { s with trace := { t with ents := t.ents.drop 1 ++ [e], lastTick := some s.ticks, dropped := 0 } }
    else { s with trace := { t with running := false } }

/-- The data of an entry: cause code and TRPC[31:0]. -/
def traceData (cause : Nat) (trpc : W64) : BitVec 40 := BitVec.ofNat 40 (cause * 2 ^ 32 + trpc.toNat % 2 ^ 32)

/-- An event that carries no cause: the field's content is a free value (notes/assumptions/1.md). -/
def State.traceFree (s : State) (c : Nat) (kind : TraceKind) : State :=
  if s.trace.running then
    let (v, s) := s.draw
    s.traceEv c kind (v.setWidth 40)
  else s

/-! ## Taking a trap (R90, R103, R104, R538) -/

/-- Block of an island's packet port (R26): bx = 4 sx + 1 in the island's edge row. -/
def ppBlk (i : Nat) : Nat := (if i < 5 then 0 else 300) + 4 * (i % 5) + 1

/-- Islands of a partition, in island order. -/
def State.islsOf (s : State) (p : Nat) : List Nat := (List.range 10).filter (fun i => (s.isl i).part == p)

/-- The partition's lowest-numbered packet port in service (R197). -/
def State.partPort (s : State) (p : Nat) : Option Nat := (s.islsOf p).find? (fun i => (s.port (160 + i)).st == 2)

/-- A doorbell of firmware enters a port's queue, or is dropped where no port is in service: source block 0x1FF, cobble 0. -/
def State.fwBell (s : State) (p : Nat) (payload : Nat) : State :=
  match s.partPort p with
  | none => s
  | some i => s.modBlk (ppBlk i) (fun k => { k with bellIn := k.bellIn ++
      [(i, { srcBlk := 0x1FF, srcCob := 0, tag := 0, part := p, payload := BitVec.ofNat 64 payload, time := s.pktime })] })

/-- Cobbles of a partition in blocks in service that satisfy a test. -/
def State.partHas (s : State) (p : Nat) (t : Cobble → Bool) : Bool :=
  s.cobs.any (fun e => s.partOfBlk (blkOf e.1) == p && !s.outOfService (blkOf e.1) && t e.2)

/-- A core's part of the context has ended; with the last one the context ends: end tick, outcome code and the doorbell
(R401). -/
def State.coreEnded (s : State) (c : Nat) : State :=
  let p := s.partOfBlk (blkOf c)
  let k := s.partn p
  if p = 0xFF || k.run != 1 || s.partHas p (fun q => q.run == .running) then s
  else
    let o := boolNat (s.partHas p (fun q => q.run == .failed))
    (s.modPart p (fun k => { k with run := 2, endTick := s.pktime, outcome := o })).fwBell p (o + 256 * k.variant)

/-- WINDOW_EXHAUSTED: the cobble stops issuing, its context is failed, the event is logged (R90). -/
def State.exhaust (s : State) (c : Nat) : State :=
  let k := s.cob c
  let s := s.setCob c { k with run := .failed, hold := .none, feSince := none }
  ((s.endWait c).logBlk (blkOf c) 7 [c % 256, k.trpc.toNat]).coreEnded c

/-- Trap entry: TRPC the saved address, TRCAUSE, TRINFO, TRLPC, TRSTAT := STATUS, TW := 1, IE := 0, the program counter
at TRBASE + 64 × cause. WINDOW_OVERFLOW and WINDOW_UNDERFLOW also set MOVE and HELD (R89). -/
def Cobble.enter (k : Cobble) (cause : Nat) (info lpc : W64) : Cobble :=
  let (mv, hd) :=
    if cause = 1 then ((k.top + 5 - k.held + 1) % 5, k.held - 1)
    else if cause = 2 then ((k.top + 4) % 5, k.held + 1)
    else (k.move, k.held)
  { k with
    move := mv, held := hd, trpc := k.pc, trcause := BitVec.ofNat 64 cause, trinfo := info, trlpc := lpc,
    trstat := k.status, tw := true, ie := false, hold := .none, feSince := none,
    pc := k.trbase + BitVec.ofNat 64 (64 * cause) }

/-- A trap or interrupt of a cobble; in the trap window it is WINDOW_EXHAUSTED (R90). -/
def State.trap (s : State) (c cause : Nat) (info : W64) (lpc : W64 := 0) : State :=
  let k := s.cob c
  if k.tw then s.exhaust c
  else (s.setCob c (k.enter cause info lpc)).traceEv c (if cause < 16 then .trap else .intr) (traceData cause k.pc)

/-- HRET n: STATUS from TRSTAT with TW := 0, on at TRPC + 4n (R103). PZ is no field that a program can write. -/
def Cobble.leave (k : Cobble) (n : Nat) : Cobble :=
  { k with ie := k.trstat.getLsbD 0, tw := false, pc := k.trpc + BitVec.ofNat 64 (4 * n) }

/-! ## Interrupts and the boundary before an instruction (R81, R104, R105) -/

/-- IPEND (Table 04-13, R224): TIMER, SIGNAL, RSTERR, PFAULT. -/
def State.ipend (s : State) (c : Nat) : BitVec 4 :=
  let k := s.cob c
  BitVec.ofNat 4 (boolNat (k.timecmp ≤ s.shadow (islOf c)) + 2 * boolNat k.ipSignal + 4 * boolNat k.ipRsterr
    + 8 * boolNat (k.pz && k.pflags &&& k.pctl != 0))

/-- The lowest pending interrupt that IENABLE enables. -/
def State.dueBit (s : State) (c : Nat) : Option Nat :=
  let p := (s.ipend c &&& (s.cob c).ienable).toNat
  if p = 0 then none else if bit p 0 then some 0 else if bit p 1 then some 1 else if bit p 2 then some 2 else some 3

/-- Is an interrupt taken at the next boundary? -/
def State.intDue (s : State) (c : Nat) : Bool :=
  let k := s.cob c
  k.ie && !k.tw && (s.dueBit c).isSome

/-- Is a deferred trap taken at the next boundary (R538)? One whose load was issued outside the trap window waits until
TW is 0. -/
def Cobble.deferredDue (k : Cobble) : Option Deferred :=
  if k.tw then k.deferred.find? (·.tw) else k.deferred.head?

/-- Is the cobble's core in service: block unfenced, island powered and not held by a brown-out (R19, R35, R444, R481)? -/
def State.coreUp (s : State) (c : Nat) : Bool :=
  let b := s.blk (blkOf c)
  let i := s.isl (islOf c)
  !b.fence && !b.rstFence && i.powered && !i.brown

/-- Does the cobble's next instruction reach issue now, unless an interrupt goes first? -/
def State.mayIssue (s : State) (c : Nat) : Bool :=
  let k := s.cob c
  s.coreUp c && k.run == .running && !k.halted && !k.rstHold && k.hold == .none && k.deferredDue.isNone

/-- May the cobble issue its next instruction now, with no interrupt due at the boundary? -/
def State.canIssue (s : State) (c : Nat) : Bool := s.mayIssue c && !s.intDue c

/-- A WAIT ends once an enabled interrupt is pending: the next instruction is the one after it (R105). -/
def State.settleWait (s : State) (c : Nat) : State :=
  let k := s.cob c
  if k.hold = .waitInt && (s.dueBit c).isSome then
    (s.setCob c { k.adv with hold := .none }).endWait c
  else s

/-- Does the fetch at the program counter fault (R83)? -/
def Cobble.badFetch (k : Cobble) : Bool := k.pc.toNat % 4 != 0 || k.codelim ≤ k.pc.toNat

/-- Is a register the destination of an outstanding load (R81)? -/
def Cobble.intBusy (k : Cobble) (i : Nat) : Bool := i != 0 && k.loads.any (fun l => l.dest == .int i)
def Cobble.fpBusy (k : Cobble) (i : Nat) : Bool :=
  k.loads.any (fun l => match l.dest with | .fp j _ => i == j | _ => false)

/-- Does a scalar register field name a register that a Piazza ISA instruction in flight writes (R213, R249)? -/
def State.flyBusy (s : State) (c : Nat) (ints fps : List (BitVec 6)) : Bool :=
  let k := s.cob c
  k.pz && (s.slotOf c).fly.any (fun f => fps.any (fun r => f.use.outTiles.contains r.toNat)
    || ints.any (fun r => f.reg.isSome && regIdx k r == f.reg && f.reg != some 0))

/-- The instruction at the boundary: a bad fetch or a reserved register number traps instead; it holds while a named register
awaits a load or the end of the count of a Piazza ISA instruction that writes it (R81, R83, R85, R213). -/
def State.attempt (s : State) (c : Nat) (w : W32) (ints fps : List (BitVec 6)) (body : Cobble → State → State) : State :=
  let k := s.cob c
  if k.badFetch then s.trap c 5 k.pc
  else if ints.any (fun f => (regIdx k f).isNone) || fps.any (fun f => 32 ≤ f.toNat) then s.trap c 3 (w.zeroExtend 64)
  else if ints.any (fun f => k.intBusy ((regIdx k f).getD 0)) || fps.any (fun f => k.fpBusy f.toNat)
      || s.flyBusy c ints fps then s
  else body k s

/-- One instruction of the stream at cobble `c`: word `w` for TRINFO, the integer and f register fields it names, and
its effect. Nothing issues while the cobble may not issue. With an interrupt due at the boundary the instruction acts only
by its synchronous trap, which goes first (R104). -/
def issue (c : Nat) (w : W32) (ints fps : List (BitVec 6)) (body : Cobble → State → State) (s0 : State) : Res :=
  onCob c s0 fun s0 =>
    let s := s0.settleWait c
    if !s.mayIssue c then s
    else
      let t := s.attempt c w ints fps body
      if s.intDue c && !(t.cob c).tw then s else t

/-- ILLEGAL_INSTRUCTION with the instruction word in TRINFO. -/
def State.illegal (s : State) (c : Nat) (w : W32) : State := s.trap c 3 (w.zeroExtend 64)

/-- The effect that changes the cobble alone and moves on. -/
def State.retire (s : State) (c : Nat) (k : Cobble) : State := s.setCob c k.adv

/-! ## Instruction words (Table 04-3) -/

def wRR (op : Nat) (rd rs1 rs2 : BitVec 6) (fn : Nat) : W32 :=
  BitVec.ofNat 6 op ++ rd ++ rs1 ++ rs2 ++ BitVec.ofNat 8 fn
def wRK (op : Nat) (rd rs1 : BitVec 6) (imm : BitVec 14) : W32 := BitVec.ofNat 6 op ++ rd ++ rs1 ++ imm
def wRKs (op : Nat) (rd rs1 : BitVec 6) (sel : Nat) (imm : BitVec 12) : W32 :=
  BitVec.ofNat 6 op ++ rd ++ rs1 ++ BitVec.ofNat 2 sel ++ imm
def wHI (op : Nat) (rd : BitVec 6) (imm : BitVec 20) : W32 := BitVec.ofNat 6 op ++ rd ++ imm
def wJT (op : Nat) (off : BitVec 26) : W32 := BitVec.ofNat 6 op ++ off

end Sys2Proof.Machine
end

