-- ==== Sys2Proof/Machine/Regs.lean ====
section
/-!
DEFINITION. Reading the registers of a block's control space (Tables 06-5, 07-8, 11-7, 13-6 and 19-11).
-/

namespace Sys2Proof.Machine

/-- Windows open (WINCFG.OPENCNT). -/
def Block.openCnt (k : Block) : Nat := (k.winCtl.filter (fun e => e.2.getLsbD 31)).length

def b32 (n : Nat) : W32 := BitVec.ofNat 32 n

/-- Is a window register offset? -/
def isWinOff (o : Nat) : Bool := 0x1000 ≤ o && o < 0x1200 && o % 4 == 0
/-- Is a DMA channel register offset? -/
def isChanOff (o : Nat) : Bool := 0x1600 ≤ o && o < 0x1800 && o % 4 == 0

/-- CHn_STAT (Table 11-8). -/
def Chan.statReg (c : Chan) : W32 := b32 (c.stat * 2 ^ 30 + c.code.toNat * 2 ^ 16 + c.fidx.toNat)

/-- BARSTAT (Table 07-9). -/
def Block.barstat (k : Block) : W32 := b32 (boolNat k.gen * 2 ^ 31 + k.early * 2 ^ 9 + k.count)

/-- A row that receives a seam direction (R326). -/
def seamRow (b : Nat) : Bool := byOf b == 7 || byOf b == 8

/-- SEAMMAPk (Table 13-7): groups 4k to 4k + 3, each USED in bit 7 and WIRE in bits [4:0] of its byte. -/
def Block.seamMapReg (k : Block) (n : Nat) : W32 :=
  b32 ((List.range 4).foldl (fun acc j => acc + (lget 0 k.seamMap (4 * n + j)).toNat * 2 ^ (8 * j)) 0)

/-- The NTE registers of an attachment block (Tables 15-7 and 15-8). -/
def State.nteReg (s : State) (b o : Nat) : Option Nat :=
  let n := (s.isl (islOfBlk b)).nte
  if ppBlk (islOfBlk b) != b || o % 4 != 0 then none
  else if o = 0x2000 then some (n.qalloc * 2 ^ 16 + n.malloc)
  else if o = 0x2004 then some n.drop.toNat
  else if 0x3000 ≤ o && o < 0x4000 then
    let r := lget ({} : Region) n.mrs ((o - 0x3000) / 32)
    match o % 32 / 4 with
    | 0 => some r.ctl.toNat
    | 1 => some r.loc.toNat
    | 2 => some r.len.toNat
    | 4 => some (r.va.toNat % 2 ^ 32)
    | 5 => some (r.va.toNat / 2 ^ 32)
    | _ => none
  else if 0x4000 ≤ o && o < 0x8000 then
    let k := lget ({} : Qp) n.qps ((o - 0x4000) / 32)
    match o % 32 / 4 with
    | 0 => some k.sqcfg.toNat
    | 1 => some k.rqcfg.toNat
    | 2 => some (k.sqcons.toNat * 2 ^ 16 + k.sqprod.toNat)
    | 3 => some (k.rqcons.toNat * 2 ^ 16 + k.rqprod.toNat)
    | 4 => some k.err.toNat
    | 5 => some (k.stat * 2 ^ 30 + k.code.toNat * 2 ^ 16 + k.fidx.toNat)
    | _ => none
  else none

/-- The value of a register of block control space as a read returns it, without the effect of an RC read; none where no
register lies. DBELL is 8 bytes wide; every other register is 4. -/
def State.ctlRead (s : State) (b o : Nat) : Option Nat :=
  let k := s.blk b
  let w := fun (x : W32) => some x.toNat
  if isWinOff o then
    let n := (o - 0x1000) / 16
    if o % 16 = 0 then w (lget 0 k.winCtl n) else if o % 16 = 4 then w (lget 0 k.winBase n)
    else if o % 16 = 8 then w (lget 0 k.winLimit n) else w (lget 0 k.winSrc n)
  else if isChanOff o then
    let c := lget {} k.chans ((o - 0x1600) / 32)
    match o % 32 / 4 with
    | 0 => w c.cfg
    | 1 => w c.err
    | 2 => some c.prod.toNat
    | 3 => some c.cons.toNat
    | 4 => w c.statReg
    | 5 => some 0
    | 6 => some (c.faddr.toNat % 2 ^ 32)
    | _ => some (c.faddr.toNat / 2 ^ 32)
  else match o with
    | 0x100 => some (256 * boolNat k.fence + k.skip.toNat)
    | 0x104 => w k.nocpri
    | 0x108 => w k.partrect
    | 0x110 => some (if seamRow b then boolNat k.seamFailed * 2 ^ 31 + k.seamParerr.toNat * 2 ^ 16 + k.seamRepl.toNat else 0)
    | 0x114 => if seamRow b then w (k.seamMapReg 0) else some 0
    | 0x118 => if seamRow b then w (k.seamMapReg 1) else some 0
    | 0x11C => if seamRow b then w (k.seamMapReg 2) else some 0
    | 0x120 => if seamRow b then w (k.seamMapReg 3) else some 0
    | 0x1200 => some (k.openCnt * 256 + k.winAlloc)
    | 0x1204 => w k.wvaddr
    | 0x1208 => w k.wvstat
    | 0x1300 => some k.nq
    | 0x1304 => some 0
    | 0x1308 => some (k.cbase.toNat % 2 ^ 32)
    | 0x130C => some (k.cbase.toNat / 2 ^ 32)
    | 0x1310 => some (k.climit.toNat % 2 ^ 32)
    | 0x1314 => some (k.climit.toNat / 2 ^ 32)
    | 0x1318 => some (2 * boolNat k.cacheOvr + boolNat k.cacheBusy)
    | 0x1400 => w k.scrubctl
    | 0x1404 => w k.cecnt
    | 0x1408 => w k.uecnt
    | 0x140C => some (2 * boolNat k.starveBs + boolNat k.starveSp)
    | 0x1500 => some (k.barIdx * 2 ^ 16 + k.expect)
    | 0x1504 => w k.barstat
    | 0x1508 => some 0
    | 0x150C => some k.sigperm.toNat
    | 0x1510 => some 0
    | 0x1800 => some k.dmaAlloc
    | 0x1A00 => w k.engwd
    | 0x1A04 => w k.engstat
    | 0x1A08 => some (boolNat k.rstFence + 2 * boolNat (k.rstFence && (lget ({} : Slot) s.slots (slotOfBlk b)).active))
    | _ => s.nteReg b o

/-- Is the register at an offset cleared by its read (R13)? -/
def isRcOff (o : Nat) : Bool := o == 0x1204 || o == 0x1208

/-- The bytes of a register: 8 for DBELL, 4 for every other. -/
def regWidth (o : Nat) : Nat := if o = 0x1510 then 8 else 4

/-- The registers of block control space that a program reaches: not the recovery registers, which are firmware's (R470), nor
the queue pairs and regions at or above the slice's allotment (R365). -/
def State.progRead (s : State) (b o : Nat) : Option Nat :=
  let n := (s.isl (islOfBlk b)).nte
  if 0x1A00 ≤ o && o < 0x1A0C || 0x3000 ≤ o && o < 0x4000 && n.malloc ≤ (o - 0x3000) / 32
      || 0x4000 ≤ o && o < 0x8000 && n.qalloc ≤ (o - 0x4000) / 32 then none
  else s.ctlRead b o

end Sys2Proof.Machine
end

