-- ==== Sys2Proof/Machine/Access.lean ====
section
/-!
DEFINITION. The shared data path: where an address leads (R94, R282 to R284), an access performed at a memory (R139,
R147, R175), requests into a block or onto the mesh (Table 13-1), answers back to their requester.
-/

namespace Sys2Proof.Machine

/-- Where an address leads. -/
inductive Tgt
  | scr (off : Nat)
  | bs (off : Nat)
  | pkg (a : Nat)
  | die (space blk cob off : Nat)
  | bad
deriving DecidableEq, Repr

/-- First block-store offset of the enabled cache quarters (R155). -/
def cacheFrom (nq : Nat) : Nat := (4 - nq) * 0x80000

/-- Two blocks of one partition (R29). -/
def State.samePart (s : State) (b b' : Nat) : Bool :=
  s.partOfBlk b != 0xFF && s.partOfBlk b == s.partOfBlk b'

/-- Tenant tag of a block's partition (ISLOWN.TENANT). -/
def State.tenantOf (s : State) (b : Nat) : BitVec 16 := (s.isl (islOfBlk b)).own.setWidth 16

/-- A global address of a requester in block `b` (R282 to R284): die space must name the own die and a block of the
requester's partition. An offset above bit 7 of a sync object is not invalid but a faulty access of R180
(notes/assumptions/81.md). -/
def State.global (s : State) (b g : Nat) : Tgt :=
  match bits g 54 2 with
  | 0 => if bits g 48 6 = 0 then .pkg (g % 2 ^ 48) else .bad
  | 2 =>
    let sp := bits g 44 4
    let blk := bits g 35 9
    let cob := bits g 27 8
    let off := g % 2 ^ 27
    let lim := if sp = 0 then 2 ^ 21 else if sp = 1 then 2 ^ 14 else if sp = 2 then 2 ^ 27 else 2 ^ 16
    if bits g 48 6 = s.pos.toNat && sp ≤ 3 && blk < nBlocks && (sp = 1 || cob = 0) && off < lim && s.samePart b blk
    then .die sp blk cob off else .bad
  | _ => .bad

/-- Is the piazza of a block's slot active? -/
def State.pzActive (s : State) (b : Nat) : Bool := (lget {} s.slots (slotOfBlk b)).active

/-- Target of a cobble's effective address (Table 04-5). `wr`: a store or FE instruction, which may not go below CODELIM.
In a piazza, tag 0x00 at or above LMBASE faults (R154). While a change of NQ runs, an address in a quarter that changes
its role has its target: the access holds, and is judged against the new NQ afterwards (R156, R161). -/
def State.target (s : State) (c : Nat) (ea : W64) (wr : Bool) : Tgt :=
  let k := s.cob c
  let b := blkOf c
  let n := ea.toNat
  let t := n / 2 ^ 56
  let a := n % 2 ^ 56
  if t = 0 then
    if a < 2 ^ 14 && !(wr && a < k.codelim) && !(k.pz && k.plmbase.toNat ≤ a) then .scr a else .bad
  else if t = 1 then
    if a < cacheFrom (min (s.blk b).nq (s.blk b).nqNew) then .bs a else .bad
  else if t = 2 then
    match s.global b a with
    | .pkg p => if (s.blk b).nq = 0 && (s.blk b).nqNew = 0 then .bad else .pkg p
    | x => x
  else .bad

/-! ## Accesses performed at a memory -/

/-- Does the word meet what the FE instruction waits for (Table 04-6)? -/
def FeOp.ready (op : FeOp) (full : Bool) : Bool :=
  match op with
  | .ldwf => full
  | .lde => full
  | .stwe => !full
  | .stf => true
  | .purge => true

/-- What a ready FE instruction leaves of the word at `a` (Table 04-6); a load's data is poisoned where `bad` says so. The
merge with the row's other bits leaves a corrected row corrected. -/
def State.feUpdate (s : State) (op : FeOp) (a : Nat) (d : List Byte) (bad : Bool) : State :=
  let s' := if lget 0 s.upset (rowOf a) = 1 then s.fixRow (rowStart a) else s
  match op with
  | .ldwf => s
  | .lde => if bad then s else s'.setFe a false
  | .stwe => (s'.writeMem a 15 d).setFe a true
  | .stf => (s'.writeMem a 15 d).setFe a true
  | .purge => s'.setFe a false

/-- The test and update of an FE instruction on the word at `a`, in one bank-step (R100, R147, R176): its row is read and
decoded, FE bits with it (R163); status 5 NOT_READY leaves everything; a poisoned word answers poison and stays. -/
def State.feAt (s : State) (op : FeOp) (a : Nat) (d : List Byte) : Nat × List Byte × State :=
  let (bad, t) := s.readRow a
  if !op.ready (s.feBit a) then (5, [], t)
  else match op with
    | .ldwf => (if bad then 4 else 0, s.rdN a 4, t.feUpdate op a d bad)
    | .lde => (if bad then 4 else 0, s.rdN a 4, t.feUpdate op a d bad)
    | _ => (0, [], t.feUpdate op a d bad)

/-- Flat address of an access at block `b`: SPACE 0 block store, SPACE 1 scratchpad or lane memory. -/
def accAddr (b : Nat) (a : Acc) : Nat := if a.space = 0 then bsAddr b a.off else scrAddr (b * 256 + a.cob) a.off

/-- An access takes effect at its bank: status, data, state. -/
def State.perform (s : State) (b : Nat) (a : Acc) : Nat × List Byte × State :=
  let f := accAddr b a
  match a.kind with
  | .rd => let (v, p, t) := s.readMem f a.size; (if p then 4 else 0, v, t)
  | .wr =>
    let t := s.writeMem f a.mask a.data a.poison
    (0, [], if a.fill then t.fillWords f a.mask a.data.length else t)
  | .fe op => s.feAt op f a.data

/-! ## Packets and answers -/

/-- Flits − 1 of a request (Table 13-1). -/
def reqFlits (a : Acc) : Nat :=
  match a.kind with
  | .wr =>
    if a.space ≥ 2 then 0
    else if a.off / 32 = (a.off + a.size - 1) / 32 then 0
    else if a.off / 64 = (a.off + a.size - 1) / 64 then 1 else 4
  | _ => 0

/-- Flits − 1 of an answer with `n` bytes of data. -/
def ansFlits (n : Nat) : Nat := if n ≤ 32 then 0 else if n ≤ 64 then 1 else 4

/-- Sync operations travel in the sync/control class, other requests in the request class (Table 13-1). -/
def accClass (a : Acc) : Nat := if a.space = 2 then 2 else 0

/-- A packet waits at a block's network interface for injection (R315, R318). -/
def State.ni (s : State) (b : Nat) (p : Packet) : State := s.modBlk b (fun k => { k with niq := k.niq ++ [p] })

/-- Level of a block's cobbles (NOCPRI.COB, R317). -/
def Block.cobLevel (k : Block) : Nat := bits k.nocpri.toNat 6 2
def Block.strmLevel (k : Block) : Nat := bits k.nocpri.toNat 4 2
def Block.cacheLevel (k : Block) : Nat := bits k.nocpri.toNat 2 2
def Block.nteLevel (k : Block) : Nat := bits k.nocpri.toNat 0 2

/-- Attachment block of a stream port (Table 01-4). -/
def spBlk (p : Nat) : Nat :=
  let i := p / 16
  (if i < 5 then 0 else 15) * 20 + 4 * (i % 5) + p % 16 / 4

/-- Flits − 1 of a command for a stream port: a read, one 32-byte half, one 64-byte unit, more (Table 13-1, R539). -/
def PortCmd.flits (c : PortCmd) : Nat :=
  if c.kind = 0 || c.beats = 1 then 0 else if c.addr / 64 = (c.addr + 32 * c.beats - 1) / 64 then 1 else 4

/-- A command for a stream port travels to its attachment block (R287, Table 11-3). -/
def State.sendPort (s : State) (b port level : Nat) (c : PortCmd) : State :=
  s.ni b { cls := 0, level := level, nfl := c.flits, dst := spBlk port, src := b, sport := c.sport,
           pay := .portCmd port { c with level := level } }

/-- Tags in use by the cache engine (8 bits, R310): outstanding accesses, the completion ADD, abandoned requests. -/
def Block.cacheUsed (k : Block) : List Nat :=
  k.cacheAdd.toList ++ (k.misses.filter (·.cmd.isNone)).map (·.tag) ++ (k.gone.filter (fun e => e.1 = 259)).map (·.2)

/-- The cache engine sends a fill or a write-back, or keeps it until one of its 256 tags is free (R310, R312). -/
def State.cacheSend (s : State) (b port : Nat) (m : CMiss) (c : PortCmd) : State :=
  let k := s.blk b
  if 256 ≤ k.cacheUsed.length then s.setBlk b { k with clock := k.clock + 1, misses := k.misses ++ [{ m with cmd := some (port, c) }] }
  else
    let tag := freshTag k.cacheUsed 256 256 0
    ((s.setBlk b { k with clock := k.clock + 1, misses := k.misses ++ [{ m with tag := tag, cmd := none }] }).engStep b 2).sendPort b port
      k.cacheLevel { c with tag := tag }

/-- A tag is free again: the oldest access that waits for one leaves. -/
def State.cachePump (s : State) (b : Nat) : State :=
  let k := s.blk b
  match k.misses.find? (·.cmd.isSome) with
  | none => s
  | some m =>
    match m.cmd with
    | some (port, c) => if 256 ≤ k.cacheUsed.length then s else (s.setBlk b { k with misses := k.misses.erase m }).cacheSend b port m c
    | none => s

/-- Takes bytes of `d` where the mask bit is 1, of `l` elsewhere. -/
def mixBytes (m : BitVec 256) (d l : List Byte) : List Byte :=
  (List.range 256).map (fun i => if m.getLsbD i then d.getD i 0 else l.getD i 0)

/-- Place of way `w` of set `n` in the table of lines; ways 16 to 31 hold lines whose write-back failed when every way of their
set was dirty again (notes/assumptions/82.md). -/
def cKey (n w : Nat) : Nat := n * 32 + w

/-- The first free place of a set from way `w` on. -/
def Block.freeWay (k : Block) (n : Nat) : Nat → Nat → Option Nat
  | 0, _ => none
  | m + 1, w => if k.lines.any (fun e => e.1 = cKey n w) then k.freeWay n m (w + 1) else some (cKey n w)

/-- A write-back that failed leaves its line dirty (R289): the bytes that no later store has made dirty are those of the
failed write-back; a line that has left its set returns to a free place of it. -/
def Block.unwrite (k : Block) (m : CMiss) : Block :=
  let n := m.key / 32
  match k.lines.find? (fun e => e.1 / 32 = n && e.2.tag = m.line.tag) with
  | some (key, cur) =>
    let lost := m.line.dirty &&& ~~~ cur.dirty
    { k with lines := lset k.lines key { cur with
        data := mixBytes lost m.line.data cur.data, valid := cur.valid ||| m.line.dirty, dirty := cur.dirty ||| m.line.dirty } }
  | none =>
    match (k.freeWay n (4 * k.nq) 0).orElse (fun _ => k.freeWay n 512 16) with
    | some key => { k with lines := lset k.lines key m.line }
    | none => k

/-- An ACK beat (Table 11-6). -/
def ackBeat (tag status : Nat) : BitVec 256 := BitVec.ofNat 256 (9 * 2 ^ 252 + tag * 2 ^ 244 + status * 2 ^ 236)

/-- An answer arrives at its requester in block `b`: a cobble's load or store, the management core (SPORT 514), the DMA engine,
another engine. The answer
to an abandoned request is discarded (R445). A failed
completion ADD of the cache engine sets OVR (R182); an inbound RLY's answer becomes an ACK beat (R291); the acknowledgement of
a write-back ends it (R159). -/
def State.deliver (s : State) (b : Nat) (a : Ans) : State :=
  let s := if a.sport = 257 then s.engStep b 0 else if a.sport = 259 then s.engStep b 2 else if a.sport = 261 then s.engStep b 3 else s
  if a.sport < 256 && (s.cob (b * 256 + a.sport)).goneTags.contains a.tag then
    s.modCob (b * 256 + a.sport) (fun k => { k with goneTags := k.goneTags.erase a.tag })
  else if (s.blk b).gone.contains (a.sport, a.tag) then
    s.modBlk b (fun k => { k with gone := k.gone.erase (a.sport, a.tag) })
  else if a.sport < 256 then
    s.modCob (b * 256 + a.sport) (fun k =>
      if k.stores.any (fun p => p.tag = a.tag) then { k with stAns := k.stAns ++ [a] }
      else { k with ans := k.ans ++ [a] })
  else if a.sport = 514 then s.modAon (fun x => { x with wstat := if a.status = 0 then 0 else 3 })
  else if a.sport = 257 then s.modBlk b (fun k => { k with dmaAns := k.dmaAns ++ [a] })
  else if a.sport = 259 && (s.blk b).cacheAdd = some a.tag then
    (s.modBlk b (fun k => { k with cacheOvr := k.cacheOvr || a.status != 0, cacheAdd := none })).cachePump b
  else if a.sport = 259 && (s.blk b).misses.any (fun m => m.wb && m.cmd.isNone && m.tag = a.tag) then
    (s.modBlk b (fun k =>
      let mine := fun (m : CMiss) => m.wb && m.cmd.isNone && m.tag = a.tag
      let k' := { k with misses := k.misses.filter (fun m => !mine m) }
      if a.status = 0 then k' else (k.misses.filter mine).foldl Block.unwrite k')).cachePump b
  else if a.sport = 258 then
    match (s.blk b).rlyTags.find? (fun e => e.1 = a.tag) with
    | none => s
    | some (_, p, t) =>
      (s.modBlk b (fun k => { k with rlyTags := lfilter (· != a.tag) k.rlyTags })).modPort p
        (fun q => { q with outq := q.outq ++ [ackBeat t (if a.status = 0 then 0 else 3)] })
  else s.modBlk b (fun k => { k with engAns := k.engAns ++ [a] })

/-- Answers an access: to a local requester at once, to a remote one by a packet at the request's level, from the sync unit
or the network interface (R311, R317). -/
def State.reply (s : State) (b : Nat) (a : Acc) (status : Nat) (data : List Byte) : State :=
  let ans : Ans := { sport := a.sport, tag := a.tag, status := status, data := data }
  if a.remote then
    s.ni b { cls := if a.space = 2 then 2 else 1, level := a.level, nfl := ansFlits data.length, dst := a.sblk, src := b,
             sport := if a.space = 2 then 260 else 256, pay := .ans ans }
  else s.deliver a.sblk ans

/-- The bytes of a job, in order. -/
def Job.bytes (j : Job) : List Byte := (List.range j.acc.size).map (fun i => lget 0 j.got i)

/-- An access, or a part of one, is done: it answers; a job answers with its last part, with the first failing status. -/
def State.accDone (s : State) (b : Nat) (a : Acc) (status : Nat) (data : List Byte) : State :=
  let k := s.blk b
  match k.jobs.find? (fun e => e.1 == a.job && a.job != 0) with
  | none => s.reply b a status data
  | some (id, j) =>
    let j := { j with left := j.left - 1, status := if j.status = 0 then status else j.status,
                      got := (List.range data.length).foldl (fun t i => lset t (a.off - j.acc.off + i) (data.getD i 0)) j.got }
    if j.left = 0 then
      (s.setBlk b { k with jobs := lfilter (· != id) k.jobs }).reply b j.acc j.status
        (if j.acc.kind = .rd then j.bytes else [])
    else s.setBlk b { k with jobs := lset k.jobs id j }

/-! ## The crossbar (R143 to R146) -/

/-- Bank of a block-store offset (R143). -/
def bsBank (off : Nat) : Nat := off / 8 % 64

/-- Crossbar port of an access: 0 to 255 the cobbles, 256 the network interface, 257 to 259 the DMA, stream and cache
engines (R144; SPORT codes of Table 13-2). -/
def Acc.xport (a : Acc) : Nat := if a.remote then 256 else a.sport

/-- Does the bank of an offset admit one more request at once: its queue holds fewer than 33, and nobody waits for it (R144)? -/
def Block.bankRoom (k : Block) (off : Nat) : Bool :=
  decide ((lget [] k.bankq (bsBank off)).length < 33) && !k.waitq.any (fun w => bsBank w.off == bsBank off)

/-- A request joins its bank's queue, admitted from its port. -/
def Block.enqueue (k : Block) (a : Acc) : Block :=
  let n := bsBank a.off
  { k with bankq := lset k.bankq n (lget [] k.bankq n ++ [a]), bankLast := lset k.bankLast n a.xport }

/-- A request is presented to its bank: admitted, or waiting at its port. -/
def Block.present (k : Block) (a : Acc) : Block :=
  if k.bankRoom a.off then k.enqueue a else { k with waitq := k.waitq ++ [a] }

/-- The waiting request that bank `n` admits next: round-robin among the ports, each its oldest (R144, R146). -/
def Block.nextWait (k : Block) (n : Nat) : Option Acc :=
  let last := lget 0 k.bankLast n
  let dist := fun (a : Acc) => (a.xport + 519 - last % 260) % 260
  (k.waitq.filter (fun a => bsBank a.off == n)).foldl (fun m a =>
    match m with
    | none => some a
    | some w => if dist a < dist w then some a else m) none

/-- The load, store or FE request of cobble `c` that waited is admitted: the instruction issues now (R144, R146, R316). -/
def Cobble.admitted (k : Cobble) : Cobble :=
  match k.hold with
  | .adm l st => { k.adv with hold := .none, loads := k.loads ++ l.toList, stores := k.stores ++ st.toList }
  | .fe w => if w.phase = 4 then { k with hold := .fe { w with phase := 2 } } else k
  | _ => k

/-- Bank `n` of block `b` admits one waiting request while its queue holds fewer than 33. -/
def State.admitOne (s : State) (b n : Nat) : State :=
  let k := s.blk b
  if 33 ≤ (lget [] k.bankq n).length then s
  else match k.nextWait n with
    | none => s
    | some a =>
      let s := s.setBlk b ({ k with waitq := k.waitq.erase a }.enqueue a)
      if a.xport < 256 then s.modCob (b * 256 + a.sport) Cobble.admitted else s

/-- Up to four admissions in a step (R144). -/
def State.admit4 (s : State) (b n : Nat) : State := (((s.admitOne b n).admitOne b n).admitOne b n).admitOne b n

/-- A DBELL store is answered at block `b`, to its cobble in the storing block, at the store's level; none waits for
firmware's doorbell (R197, R311). -/
def State.bellAnswer (s : State) (b : Nat) (d : Doorbell) (status : Nat) : State :=
  let ans : Ans := { sport := d.srcCob, tag := d.tag, status := status }
  if nBlocks ≤ d.srcBlk then s
  else if d.srcBlk = b then s.deliver b ans
  else s.ni b { cls := 1, level := d.level, nfl := 0, dst := d.srcBlk, src := b, sport := 256, pay := .ans ans }

/-! ## Accesses of several bank-steps (R139, R141, R143, R149) -/

/-- The largest aligned pieces of 1, 2, 4 … 2^n bytes that hold exactly the wanted bytes among the 2^n from `o`. -/
def pieces (want : Nat → Bool) : Nat → Nat → List (Nat × Nat)
  | 0, o => if want o then [(o, 1)] else []
  | n + 1, o =>
    if (List.range (2 ^ (n + 1))).all (fun i => want (o + i)) then [(o, 2 ^ (n + 1))]
    else pieces want n o ++ pieces want n (o + 2 ^ n)

/-- Does an access read or write the byte at an offset? -/
def Acc.wants (a : Acc) (o : Nat) : Bool := a.off ≤ o && o < a.off + a.size && (a.kind != .wr || bit a.mask (o - a.off))

/-- The `n` bytes of an access from offset `o`. -/
def Acc.part (a : Acc) (o n : Nat) : Acc :=
  { a with off := o, size := n, data := (a.data.drop (o - a.off)).take n, mask := a.mask / 2 ^ (o - a.off) % 2 ^ n }

/-- Is an access one of 1, 2, 4 or 8 aligned bytes, 2^n at most, all of them wanted: one bank-step (R141, R143)? -/
def Acc.single (a : Acc) (n : Nat) : Bool :=
  [1, 2, 4, 8].contains a.size && a.size ≤ 2 ^ n && a.off % a.size == 0 && (a.kind != .wr || a.mask == maskN a.size)

/-- The bank-steps of an access to rows of 2^n bytes. -/
def Acc.rows (a : Acc) (n : Nat) : List Acc :=
  let r := 2 ^ n
  ((List.range ((a.off % r + a.size + r - 1) / r)).flatMap (fun i => pieces a.wants n (a.off / r * r + i * r))).map
    (fun p => a.part p.1 p.2)

/-- The parts of an access to lane memory, each one row of every bank at most (R149, R154). -/
def Acc.laneRows (a : Acc) : List Acc :=
  (List.range ((a.off % 16 + a.size + 15) / 16)).map (fun i =>
    let lo := max a.off ((a.off / 16 + i) * 16)
    a.part lo (min (a.off + a.size) ((a.off / 16 + i + 1) * 16) - lo))

/-- An access is done part by part: a job of the block, which answers when its last part is done. -/
def Block.spread (k : Block) (a : Acc) (parts : List Acc) (put : Block → Acc → Block) : Block :=
  let id := k.jobSeq + 1
  parts.foldl (fun k p => put k { p with job := id })
    { k with jobSeq := id, jobs := lset k.jobs id { acc := a, left := parts.length } }

/-- Is a sync object access well formed (R180): 4 bytes, no offset bit above bit 7, SET, ADD or READ, data bit 31 clear? -/
def Acc.syncOk (a : Acc) : Bool :=
  a.size == 4 && a.off < 256 && a.off % 4 == 0 && bits a.off 2 2 ≤ 1 &&
  match a.kind with
  | .rd => true
  | .wr => ofBytes a.data < 2 ^ 31
  | .fe _ => false

/-- An access reaches its unit inside block `b`: its bank or banks, the scratchpads' background accesses, a piazza's external
accesses, the sync unit, or a register (R144, R149, R181); a local access to an enabled cache quarter is refused (R156). A read of a register other than an RC one answers at once
(notes/assumptions/6.md); an access to an offset without a register, or of another size than the register's, is refused
(R283, notes/assumptions/7.md). -/
def State.arrive (s : State) (b : Nat) (a : Acc) : State :=
  if a.space ≤ 1 then
    if s.pzActive b then
      if a.space = 1 && 16 < a.off % 16 + a.size then
        s.modBlk b (fun k => k.spread a a.laneRows (fun k p => { k with ext := k.ext ++ [p] }))
      else s.modBlk b (fun k => { k with ext := k.ext ++ [a] })
    else if a.space = 0 && !a.remote && cacheFrom (s.blk b).nq < a.off + a.size then s.reply b a 6 []
    else
      let n := if a.space = 0 then 3 else 2
      let put := fun (k : Block) (p : Acc) => if a.space = 0 then k.present p else { k with bg := k.bg ++ [p] }
      if a.single n then s.modBlk b (fun k => put k a)
      else if (a.rows n).isEmpty then s.reply b a 0 []
      else s.modBlk b (fun k => k.spread a (a.rows n) put)
  else if a.space = 2 then
    if a.syncOk then s.modBlk b (fun k => { k with syncIn := k.syncIn ++ [a] }) else s.reply b a 6 []
  else match s.progRead b a.off with
    | none => s.reply b a 6 []
    | some v =>
      if a.kind = .rd && a.size = regWidth a.off && !isRcOff a.off then s.reply b a 0 (toBytes a.size v)
      else if a.size ≠ regWidth a.off then s.reply b a 6 []
      else s.modBlk b (fun k => { k with ctlIn := k.ctlIn ++ [a] })

/-- A request from a unit of block `b` to block `dst`: local, or a packet to the network interface. Fenced blocks answer
FENCED (R24, R444). -/
def State.send (s : State) (b dst : Nat) (a : Acc) : State :=
  if b = dst then
    if (s.blk b).fence || (s.blk b).rstFence then s.reply b a 1 [] else s.arrive b a
  else
    s.ni b { cls := accClass a, level := a.level, nfl := reqFlits a, dst := dst, src := b, sport := a.sport,
             pay := .acc { a with remote := true } }

/-- The stamp of a cobble's request: its requester fields, level, class OWN, tenant, die. -/
def State.stamp (s : State) (c tag : Nat) (a : Acc) : Acc :=
  let b := blkOf c
  { a with sblk := b, sport := c % 256, tag := tag, level := (s.blk b).cobLevel, sclass := 0, sdie := s.pos.toNat,
           tenant := s.tenantOf b }

end Sys2Proof.Machine
end

