-- ==== Sys2Proof/Machine/Cache.lean ====
section
/-!
DEFINITION. The cache quarters of a block: lookup, allocation, hits, misses, write-backs, fills and the cache operations
(R155 to R162, R288).
-/

namespace Sys2Proof.Machine

/-- Overwrites bytes of a list from position `p` where the mask bit is 1. -/
def setBytes : List Byte → Nat → Nat → List Byte → List Byte
  | l, _, _, [] => l
  | l, p, m, v :: vs => setBytes (if m % 2 = 1 then l.set p v else l) (p + 1) (m / 2) vs

/-- Set and tag of a package-memory offset (R155). -/
def cSet (a : Nat) : Nat := bits a 8 9
def cTag (a : Nat) : Nat := bits a 17 31

/-- The package address of a line. -/
def cAddr (key : Nat) (l : CLine) : Nat := l.tag * 2 ^ 17 + key / 32 % 512 * 256

/-- A line of the cache by its key. -/
def Block.line (k : Block) (key : Nat) : CLine := lget ({} : CLine) k.lines key

/-- The place of a set that holds a tag. -/
def Block.cFind (k : Block) (a : Nat) : Option Nat :=
  (k.lines.find? (fun e => e.1 / 32 = cSet a && e.2.tag = cTag a)).map (·.1)

/-- A free way of the set, or the least recently used one (R155); without a FILL binding no dirty line can leave (R289). -/
def Block.cVictim (k : Block) (a : Nat) (fill : Bool) : Option Nat :=
  let n := cSet a
  match k.freeWay n (4 * k.nq) 0 with
  | some key => some key
  | none =>
    (k.lines.filter (fun e => e.1 / 32 = n && (fill || e.2.dirty = 0))).foldl (fun (m : Option (Nat × CLine)) x =>
      match m with
      | none => some x
      | some y => if x.2.used < y.2.used then some x else some y) none |>.map (·.1)

/-- SBINDn fields (Table 11-5). -/
def sbValid (r : W32) : Bool := r.getLsbD 31
def sbKind (r : W32) : Nat := bits r.toNat 29 2
def sbInfe (r : W32) : Bool := r.getLsbD 28
def sbRetired (r : W32) : Bool := r.getLsbD 27
def sbPort (r : W32) : Nat := bits r.toNat 8 8
def sbFar (r : W32) : Nat := bits r.toNat 0 6

/-- Lowest valid binding of a kind in an island. -/
def State.lowBind (s : State) (i kind : Nat) : Option Nat :=
  (List.range 16).find? (fun n => let r := lget 0 (s.isl i).sbind n; sbValid r && sbKind r == kind)

/-- The port of the FILL binding that a block's cache engine uses (R288). -/
def State.fillPort (s : State) (b : Nat) : Option Nat :=
  let i := islOfBlk b
  match s.lowBind i 2 with
  | some n => some (sbPort (lget 0 (s.isl i).sbind n))
  | none =>
    match (List.range 10).find? (fun j => (s.isl j).part == (s.isl i).part && (s.isl i).part != 0xFF && (s.lowBind j 2).isSome) with
    | some j => (s.lowBind j 2).map (fun n => sbPort (lget 0 (s.isl j).sbind n))
    | none => none

/-- The mask as a list, bit i first. -/
def maskList (n m : Nat) : List Bool := (List.range n).map (fun i => bit m i)

/-- Is a byte of the mask in a poisoned or uncorrectable double-word of the line? -/
def CLine.badIn (l : CLine) (m : BitVec 256) : Bool :=
  (List.range 256).any (fun i => m.getLsbD i && decide (2 ≤ lget 0 l.ecc (i / 8)))

/-- Writes back a line's dirty bytes (R157): a WRM through the FILL binding, remembered until its acknowledgement. Dirty bytes of
a poisoned double-word go as poisoned data. -/
def State.writeBack (s : State) (b p key : Nat) (l : CLine) : State :=
  let a := cAddr key l
  s.cacheSend b p { acc := { kind := .wr, space := 4, off := a, size := 256 }, addr := a, wb := true, tag := 0, key := key, line := l }
    { kind := 2, addr := a, beats := 8, mask := maskList 256 l.dirty.toNat, data := l.data, poison := l.badIn l.dirty, sblk := b,
      sport := 259, tag := 0 }

/-- Brings a line for an address into its set, writing back the victim's dirty bytes: its key; none where every line of the
set is dirty and no FILL binding is left. -/
def State.cAlloc (s : State) (b a : Nat) : Option Nat × State :=
  match (s.blk b).cFind a with
  | some key => (some key, s)
  | none =>
    match (s.blk b).cVictim a (s.fillPort b).isSome with
    | none => (none, s)
    | some key =>
      let old := (s.blk b).line key
      let s := match s.fillPort b with
        | some p => if old.dirty = 0 then s else s.writeBack b p key old
        | none => s
      (some key, s.modBlk b (fun k => { k with
        lines := lset k.lines key { tag := cTag a, data := List.replicate 256 0, used := k.clock }, clock := k.clock + 1 }))

/-- Are bytes p … p + n − 1 of a line valid? -/
def CLine.has (l : CLine) (p n : Nat) : Bool := (List.range n).all (fun i => l.valid.getLsbD (p + i))

/-- Bits p … p + n − 1 of a line mask. -/
def lineMask (p m : Nat) : BitVec 256 := BitVec.ofNat 256 (m * 2 ^ p)

/-- An access decodes double-word `i` of a line (R163, R164): 1 a single-bit error, counted and corrected; 2 an uncorrectable
one, counted and logged once, then poison, 3. The manual places no line in a bank and row, so the record's bank and row are
free values (notes/assumptions/82.md). Is the double-word poisoned? -/
def State.lineRow (s : State) (b key i : Nat) : Bool × State :=
  let put := fun (s : State) (v : Nat) => s.modBlk b (fun k =>
    let l := k.line key
    { k with lines := lset k.lines key { l with ecc := cset 0 l.ecc i v } })
  match lget 0 ((s.blk b).line key).ecc i with
  | 0 => (false, s)
  | 1 => (false, put (s.countCe b) 0)
  | 2 =>
    let (v, s) := s.draw
    let k := s.blk b
    let n := satInc k.uecnt
    (true, put (((s.setBlk b { k with uecnt := n }).satLog 2 b 1 k.uecnt n).logBlk b 2
      [0, v.toNat % 64, v.toNat / 64 % 4096, 0, 0]) 3)
  | _ => (true, s)

/-- A store's bytes reach a line (R157): a double-word written whole loses its error, a partial write into a poisoned one leaves
it poisoned (R164). -/
def State.lineWrite (s : State) (b key p m : Nat) (d : List Byte) : State :=
  let n := d.length
  let s := ((List.range ((p % 8 + n + 7) / 8)).map (p / 8 + ·)).foldl (fun s i =>
    let w := rowMask p m n (i * 8) 8
    if w = 0 then s
    else if w = 8 then s.modBlk b (fun k =>
      let l := k.line key
      { k with lines := lset k.lines key { l with ecc := cset 0 l.ecc i 0 } })
    else (s.lineRow b key i).2) s
  s.modBlk b (fun k =>
    let l := k.line key
    { k with
      clock := k.clock + 1,
      lines := lset k.lines key { l with
        data := setBytes l.data p m d, valid := l.valid ||| lineMask p m, dirty := l.dirty ||| lineMask p m, used := k.clock } })

/-- A store through the cache writes its line (R157); where no line can be had it is refused (notes/assumptions/82.md). -/
def State.cacheStore (s : State) (b : Nat) (a : Acc) : State :=
  match s.cAlloc b a.off with
  | (none, s) => s.deliver b { sport := a.sport, tag := a.tag, status := 6 }
  | (some key, s) => (s.lineWrite b key (a.off % 256) a.mask a.data).deliver b { sport := a.sport, tag := a.tag, status := 0 }

/-- A load through the cache: with every byte valid a hit; any other waits for a fill (R157). -/
def State.cacheLoad (s : State) (b : Nat) (a : Acc) : State :=
  let k := s.blk b
  let p := a.off % 256
  let hit := match k.cFind a.off with
    | some key => if (k.line key).has p a.size then some key else none
    | none => none
  match hit with
  | some key =>
    let s := s.setBlk b { k with lines := lset k.lines key { k.line key with used := k.clock }, clock := k.clock + 1 }
    let (bad, s) := s.lineRow b key (p / 8)
    s.deliver b { sport := a.sport, tag := a.tag, status := if bad then 4 else 0, data := ((k.line key).data.drop p).take a.size }
  | none =>
    match s.fillPort b with
    | none => s.deliver b { sport := a.sport, tag := a.tag, status := 6 }
    | some f =>
      let line := a.off / 256 * 256
      s.cacheSend b f { acc := a, addr := line, wb := false, tag := 0 }
        { kind := 0, addr := line, beats := 8, sblk := b, sport := 259, tag := 0 }

/-- An access through the cache takes place (R157, R158): FE state reads as full and never changes. -/
def State.cacheDo (s : State) (b : Nat) (a : Acc) : State :=
  match a.kind with
  | .wr => s.cacheStore b a
  | .fe .stf => s.cacheStore b a
  | .fe .stwe => s.deliver b { sport := a.sport, tag := a.tag, status := 5 }
  | .fe .purge => s.deliver b { sport := a.sport, tag := a.tag, status := 0 }
  | _ => s.cacheLoad b a

/-- Does an earlier access of the same cobble to the same double-word still wait (R102)? -/
def Block.cBehind (k : Block) (a : Acc) : Bool :=
  let same := fun (x : Acc) => x.sport == a.sport && x.off / 8 == a.off / 8
  k.misses.any (fun m => !m.wb && same m.acc) || k.cwait.any same

/-- A cobble's access to package memory through the cache; behind an earlier one to its double-word it waits (R102). -/
def State.cacheAccess (s : State) (b : Nat) (a : Acc) : State :=
  if (s.blk b).cBehind a then s.modBlk b (fun k => { k with cwait := k.cwait ++ [a] }) else s.cacheDo b a

/-- The waiting accesses are tried again, in order. -/
def State.cacheRetry (s : State) (b : Nat) : State :=
  (s.blk b).cwait.foldl (fun s a => s.cacheAccess b a) (s.modBlk b (fun k => { k with cwait := [] }))

/-- A fill's data: the invalid bytes of the line become valid, the valid ones stay (R157). The loads that waited go on with
the data even where the set has no line for them. -/
def State.cacheFill (s : State) (b a : Nat) (d : List Byte) : State :=
  match s.cAlloc b a with
  | (none, s) => s
  | (some key, s) => s.modBlk b (fun k =>
    let l := k.line key
    let inv := (~~~ l.valid).toNat
    { k with lines := lset k.lines key { l with data := setBytes l.data 0 inv d, valid := BitVec.allOnes 256 } })

/-- One line under a cache operation (Table 06-3): OP 1 FLUSH, 2 INV, 3 FLUSHINV. -/
def State.cacheOpLine (s : State) (b op key : Nat) : State :=
  let l := (s.blk b).line key
  let flush := op % 2 = 1
  let go := fun (s : State) => s.modBlk b (fun k => { k with
      lines := lset k.lines key { l with
        dirty := 0, valid := if op ≥ 2 then 0 else l.valid } })
  if flush && l.dirty != 0 then
    match s.fillPort b with
    | none => s.modBlk b (fun k => { k with cacheStuck := true })
    | some p => go (s.writeBack b p key l)
  else go s

/-- The scan of a cache operation over the lines in range (R159). -/
def State.cacheScan (s : State) (b op : Nat) (inRange : Nat → Bool) : State :=
  ((s.blk b).lines.filter (fun e => inRange (cAddr e.1 e.2))).foldl (fun s e => s.cacheOpLine b op e.1) s

end Sys2Proof.Machine
end

