-- ==== Sys2Proof/Machine/Wave.lean ====
section
/-!
DEFINITION. Service of accesses at the banks, lanes and piazza addresses, and the waves of a piazza with their bank conflicts
(R139 to R154, R176, R217; Table 06-1).
-/

namespace Sys2Proof.Machine

/-! ## Service of an access -/

/-- The FE bit that an instruction waits for. -/
def FeOp.awaits (op : FeOp) : Bool :=
  match op with
  | .stwe => false
  | _ => true

/-- The block's FE watch of a cobble on a word of the block store (R176). -/
def State.feWatch (s : State) (c word : Nat) (v : Bool) : State :=
  s.modBlk (blkOf c) (fun k => { k with fewatch := lset k.fewatch (c % 256) (word, v) })
def State.feUnwatch (s : State) (c : Nat) : State :=
  s.modBlk (blkOf c) (fun k => { k with fewatch := lfilter (· != c % 256) k.fewatch })

/-- A served access answers its requester; an unsatisfied FE access of an own cobble leaves its watch (R176). -/
def State.served (s : State) (b : Nat) (a : Acc) : State :=
  let (st, d, s) := s.perform b a
  let s := match a.kind with
    | .fe op => if st = 5 && !a.remote && a.sport < 256 && a.space = 0 then s.feWatch (b * 256 + a.sport) (a.off / 4) op.awaits else s
    | _ => s
  s.accDone b a st d

/-! ## Lanes and addresses -/

/-- The cobble of lane (x, y) of a slot, as lane number 64 × y + x. -/
def laneCob (sl l : Nat) : Nat :=
  let x := l % 64
  let y := l / 64
  blkOfSlot sl (4 * (y / 16) + x / 16) * 256 + (y % 16) * 16 + x % 16

/-- Flat address of piazza address P (R148). -/
def pAddr (sl p : Nat) : Nat := bsAddr (blkOfSlot sl (p / 512 % 16)) (p / 8192 * 512 + p % 512)

/-- LMBASE of a slot (Table 08-3). -/
def Slot.lmbase (k : Slot) : Nat := k.lmb * 1024

/-- Flat address of lane address L of a lane (R153). -/
def State.lAddr (s : State) (sl l a : Nat) : Nat := scrAddr (laneCob sl l) ((lget {} s.slots sl).lmbase + a)

/-- Size of lane memory. -/
def Slot.lmSize (k : Slot) : Nat := 16384 - k.lmbase

/-! ## Waves (R149 to R152) -/

/-- The blocks of a slot in slot-local order. -/
def slotBlks (k : Nat) : List Nat := (List.range 16).map (blkOfSlot k)

/-- An own access of a wave: requester key, flat address, length; the byte mask and data of a write; the FE instruction of
the control cobble and its data. -/
structure WAcc where
  key : Nat
  adr : Nat
  len : Nat
  wr : Option (Nat × List Byte) := none
  fe : Option (FeOp × List Byte) := none
deriving DecidableEq, Repr

/-- The bank that holds a row, by the row's first byte. -/
def bankOf (a : Nat) : Nat :=
  if a < bsBase then 320 * 64 + a / 16384 * 4 + a / 4 % 4 else (a - bsBase) / 2097152 * 64 + (a - bsBase) / 8 % 64

/-- The row that wins each bank: the own access with the lowest key first (R151). Rows are kept as first byte + 1. -/
def winners (accs : List WAcc) : Tbl Nat :=
  accs.foldl (fun t a => (rowsOf a.adr a.len).foldl (fun t r =>
    if lget 0 t (bankOf r) = 0 then lset t (bankOf r) (r + 1) else t) t) []

/-- The rows of an access that another row of their bank beats. -/
def lostRows (w : Tbl Nat) (rows : List Nat) : List Nat :=
  rows.filter (fun r => let x := lget 0 w (bankOf r); x != 0 && x != r + 1)

/-- Does an access to these rows lose? -/
def loses (w : Tbl Nat) (rows : List Nat) : Bool := !(lostRows w rows).isEmpty

/-- Is a row poisoned, or uncorrectable? -/
def State.badRow (s : State) (r : Nat) : Bool := lget false s.psn (rowOf r) || 2 ≤ lget 0 s.upset (rowOf r)

/-- The external accesses that the slot's blocks commit to a wave: each its oldest one (R150). -/
def State.committed (s : State) (sl : Nat) : List (Nat × Acc) :=
  (slotBlks sl).filterMap (fun b => ((s.blk b).ext.head?).map (fun a => (b, a)))

/-- A losing wave is recorded: PBCREC, BANKC for the instruction, the log (R151; Table 08-9). -/
def State.conflict (s : State) (sl pc lost bank : Nat) : State :=
  let c := ctlCobble sl
  let k := s.cob c
  let r := k.pbcrec.toNat
  let waves := bits r 16 16
  let head := if waves = 0 then min lost 4095 * 2 ^ 52 + bank * 2 ^ 42 + pc % 2 ^ 14
    else r / 2 ^ 32 * 2 ^ 32 + r % 2 ^ 14
  let s := s.setCob c { k with pbcrec := BitVec.ofNat 64 (head + (if waves = 0xFFFF then waves else waves + 1) * 2 ^ 16) }
  (s.see (islOf c) 4).logBlk (blkOfSlot sl (bank / 64 % 16)) 3 [bank, pc, min lost 4095]

/-- Slot-local number of a bank: 0 to 1,023 of the piazza store; a lane-memory bank counts as its block's bank 0. -/
def localBank (a : Nat) : Nat :=
  if a < bsBase then slotIdx (a / 16384 / 256) * 64 else slotIdx ((a - bsBase) / 2097152) * 64 + (a - bsBase) / 8 % 64

/-- Does an own access read its rows? -/
def WAcc.reads (a : WAcc) : Bool := a.wr.isNone

/-- One wave of the slot's own accesses, keys rising, with the committed external accesses. Answers the data of each own
access (none where it lost or met poison), whether a conflict was raised, and the state. Reads see the memory as it stood
before the wave's writes; own writes stand over external ones, and among them the highest key stands. -/
def State.wave (s : State) (sl pc : Nat) (accs : List WAcc) : List (Option (List Byte)) × Bool × State :=
  let w := winners accs
  let lost := fun (a : WAcc) => loses w (rowsOf a.adr a.len)
  let exts := s.committed sl
  let extRows := fun (e : Nat × Acc) => rowsOf (accAddr e.1 e.2) e.2.size
  let extLost := exts.filter (fun e => loses w (extRows e))
  let extKept := exts.filter (fun e => !loses w (extRows e))
  let reads := (accs.filter (fun a => !lost a && a.reads)).flatMap (fun a => rowsOf a.adr a.len)
    ++ (extKept.filter (fun e => e.2.kind == .rd)).flatMap extRows
  let data := accs.map (fun a =>
    if lost a || a.wr.isSome || (rowsOf a.adr a.len).any s.badRow then none else some (s.rdN a.adr a.len))
  let extData := extKept.map (fun e => (e, (extRows e).any s.badRow, s.rdN (accAddr e.1 e.2) e.2.size))
  let t := (s.readRows reads.eraseDups).2
  let t := exts.foldl (fun t e => t.modBlk e.1 (fun k => { k with ext := k.ext.drop 1 })) t
  let t := extData.foldl (fun t x =>
    let (b, a) := x.1
    if a.kind = .rd then t.accDone b a (if x.2.1 then 4 else 0) x.2.2
    else t.served b a) t
  let t := accs.foldl (fun t a =>
    if lost a then t
    else match a.wr, a.fe with
      | some (m, d), _ => t.writeMem a.adr m d
      | none, some (op, d) =>
        if op.ready (s.feBit a.adr) then t.feUpdate op a.adr d ((rowsOf a.adr a.len).any s.badRow) else t
      | none, none => t) t
  let t := extLost.foldl (fun t e => t.accDone e.1 e.2 3 []) t
  let losers := (accs.filter lost).map (fun a => lostRows w (rowsOf a.adr a.len))
    ++ extLost.map (fun e => lostRows w (extRows e))
  match losers.flatten.map localBank with
  | [] => (data, false, t)
  | b :: bs => (data, true, t.conflict sl pc losers.length (bs.foldl min b))

/-- An access of the control cobble inside its own part of the piazza store is a wave of its own with requester index 0,
together with the external accesses of the step (R217): its data, none where it is poisoned. -/
def State.wave1 (s : State) (c : Nat) (a : WAcc) : Option (List Byte) × State :=
  let (d, _, t) := s.wave (slotOfBlk (blkOf c)) (s.cob c).pc.toNat [a]
  (d.headD none, t)

end Sys2Proof.Machine
end

