-- ==== Sys2Proof/Machine/LoadStore.lean ====
section
/-!
DEFINITION. Loads, stores and the store buffer (R84, R94 to R98, R102, R145, R157; Tables 04-4 and 04-14).
-/

namespace Sys2Proof.Machine

/-- A loaded value in its register form: sign- or zero-extended, or an f register value (R84). -/
def loadValue (d : Dest) (size : Nat) (signed : Bool) (bs : List Byte) : W64 :=
  let n := ofBytes (bs.take size)
  match d with
  | .fp _ true => box32 n
  | _ =>
    if signed && bit n (8 * size - 1) then BitVec.ofNat 64 (n + 2 ^ 64 - 2 ^ (8 * size)) else BitVec.ofNat 64 n

def Cobble.setDest (k : Cobble) (d : Dest) (v : W64) : Cobble :=
  match d with
  | .int i => k.setIntIdx i v
  | .fp i _ => k.setFpN i v

/-! ## The store buffer (R96, R97) -/

def StEntry.overlaps (e : StEntry) (off n : Nat) : Bool := e.off < off + n && off < e.off + e.size
def StEntry.covers (e : StEntry) (off n : Nat) : Bool := e.off ≤ off && off + n ≤ e.off + e.size

/-- Position of the youngest overlapping entry, from the oldest. -/
def youngest (l : List StEntry) (off n : Nat) : Option Nat :=
  let h := (List.range l.length).filter (fun i => (l.getD i ⟨0, 0, 0⟩).overlaps off n)
  h.getLast?

/-- The oldest entry is written to the scratchpad. -/
def State.stWrite (s : State) (c : Nat) : State :=
  let k := s.cob c
  match k.stbuf with
  | [] => s
  | e :: es =>
    (s.setCob c { k with stbuf := es }).writeMem (scrAddr c e.off) (maskN e.size) (toBytes e.size e.data.toNat)

def State.stDrain (s : State) (c : Nat) : Nat → State
  | 0 => s
  | n + 1 => (s.stWrite c).stDrain c n

/-- A store enters the buffer; with four entries the oldest is written in the same step (R96). -/
def State.stPush (s : State) (c : Nat) (e : StEntry) : State :=
  let s := if (s.cob c).stbuf.length < 4 then s else s.stWrite c
  s.modCob c (fun k => { k with stbuf := k.stbuf ++ [e] })

/-- A private-scratchpad load (R97): from the youngest overlapping entry when it covers the load, after draining through
it when it overlaps in part, else from the scratchpad. -/
def State.scrLoad (s : State) (c off n : Nat) : List Byte × Bool × State :=
  let l := (s.cob c).stbuf
  match youngest l off n with
  | none => s.readMem (scrAddr c off) n
  | some i =>
    let e := l.getD i ⟨0, 0, 0⟩
    if e.covers off n then (((toBytes e.size e.data.toNat).drop (off - e.off)).take n, false, s)
    else (s.stDrain c (i + 1)).readMem (scrAddr c off) n

/-! ## Requests of a cobble to other memories -/

/-- Everything earlier is done: what FENCE waits for (R102); in a piazza also every earlier piazza instruction (R216). DESIGN
CHOICE (notes/assumptions/100.md): a deferred trap that cannot be taken before HRET is not done, so such a wait in the trap
window lasts. -/
def State.drained (s : State) (c : Nat) : Bool :=
  let k := s.cob c
  k.stbuf.isEmpty && k.loads.isEmpty && k.stores.isEmpty && k.deferred.isEmpty &&
    !(k.pz && !(s.slotOf c).fly.isEmpty)

/-- Sends an access of cobble `c` to its target (Table 11-3). -/
def State.sendCob (s : State) (c tag : Nat) (t : Tgt) (a : Acc) : State :=
  let b := blkOf c
  match t with
  | .bs off => s.send b b (s.stamp c tag { a with space := 0, off := off })
  | .die sp blk cob off => s.send b blk (s.stamp c tag { a with space := sp, cob := cob, off := off })
  | .pkg p => s.cacheAccess b (s.stamp c tag { a with space := 4, off := p })
  | _ => s

/-- Must the access wait before it is judged: a quarter that changes its role, or a cache engine fenced for reset (R161, R444)? -/
def State.mustHold (s : State) (c : Nat) (t : Tgt) : Bool :=
  let k := s.blk (blkOf c)
  let moving := fun (off : Nat) => k.nq != k.nqNew && decide (cacheFrom (max k.nq k.nqNew) ≤ off)
  match t with
  | .bs off => moving off
  | .die 0 blk _ off => blk == blkOf c && moving off
  | .pkg _ => k.nq != k.nqNew || k.engHold.contains 2
  | _ => false

/-- Is a request of the cobble admitted in the step in which it reaches issue: no full bank stands in its way, and it does
not leave by the network interface (R144, R146, R316, R321)? -/
def State.instant (s : State) (c : Nat) (t : Tgt) : Bool :=
  let b := blkOf c
  match t with
  | .bs off => s.pzActive b || (s.blk b).bankRoom off
  | .die sp blk _ off => blk == b && (sp != 0 || s.pzActive b || cacheFrom (s.blk b).nq ≤ off || (s.blk b).bankRoom off)
  | _ => true

/-- Takes the next request tag of a cobble that no abandoned request holds (R445); 255 is kept for FE instructions
(notes/assumptions/8.md). -/
def Cobble.takeTag (k : Cobble) : Nat × Cobble :=
  let t := freshTag k.goneTags 255 255 k.nextTag
  (t, { k with nextTag := (t + 1) % 255 })

/-- A load or store request with its tag: admitted at once, it joins the outstanding ones and the pipeline moves on; else
the cobble holds issue until its bank or the network interface admits it (R144, R146, R316). -/
def State.post (s : State) (c : Nat) (t : Tgt) (a : Acc) (ld : Nat → Option PendLoad) (st : Nat → Option PendStore) : State :=
  let (tag, k) := (s.cob c).takeTag
  let k := { k with hold := .adm (ld tag) (st tag) }
  (s.setCob c (if s.instant c t then k.admitted else k)).sendCob c tag t a

/-- An access inside the control cobble's own part of the piazza store: it takes effect in its wave step (R217). -/
def State.ownWave (s : State) (c : Nat) (t : Tgt) : Bool :=
  match t with
  | .bs _ => s.pzActive (blkOf c)
  | _ => false

def Tgt.offset : Tgt → Nat
  | .bs o => o
  | .scr o => o
  | _ => 0

/-- A load of `size` bytes into `d` (R94, R97, R145, R538; Table 04-1). -/
def State.load (s : State) (c : Nat) (d : Dest) (size : Nat) (signed : Bool) (ea : W64) : State :=
  let k := s.cob c
  match s.target c ea false with
  | .bad => s.trap c 5 ea
  | t =>
    if s.mustHold c t then s
    else if ea.toNat % size != 0 then s.trap c 4 ea
    else match t with
      | .scr off =>
        let (v, p, s) := s.scrLoad c off size
        if p then s.trap c 6 ea
        else s.retire c ((s.cob c).setDest d (loadValue d size signed v))
      | _ =>
        if s.ownWave c t then
          let (v, s) := s.wave1 c { key := 0, adr := bsAddr (blkOf c) t.offset, len := size }
          match v with
          | some v => s.retire c ((s.cob c).setDest d (loadValue d size signed v))
          | none => s.retire c { s.cob c with deferred := k.deferred ++
              [{ cause := 6, info := ea, lpc := k.pc ||| (1#64 <<< 63), tw := k.tw }] }
        else if k.loads.length ≥ 4 then s
        else s.post c t { kind := .rd, space := 0, off := 0, size := size }
          (fun tag => some { tag := tag, dest := d, size := size, signed := signed, addr := ea, pc := k.pc, tw := k.tw })
          (fun _ => none)

/-- Does a store carry the implied FENCE of R102: a sync object signal, BARARRIVE or DBELL? -/
def fencedStore (t : Tgt) : Bool :=
  match t with
  | .die 2 _ _ _ => true
  | .die 3 _ _ off => off == 0x1508 || off == 0x1510
  | _ => false

/-- A store of `size` bytes (R94, R96, R102; Table 04-1). -/
def State.store (s : State) (c size : Nat) (data : W64) (ea : W64) : State :=
  let k := s.cob c
  match s.target c ea true with
  | .bad => s.trap c 5 ea
  | t =>
    if s.mustHold c t then s
    else if ea.toNat % size != 0 then s.trap c 4 ea
    else match t with
      | .scr off => (s.setCob c k.adv).stPush c { off := off, size := size, data := data }
      | _ =>
        let d := toBytes size data.toNat
        if fencedStore t && !s.drained c then s
        else if s.ownWave c t then
          let (_, s) := s.wave1 c { key := 0, adr := bsAddr (blkOf c) t.offset, len := size, wr := some (maskN size, d) }
          s.retire c (s.cob c)
        else if k.stores.length ≥ 8 then s
        else s.post c t { kind := .wr, space := 0, off := 0, size := size, data := d, mask := maskN size }
          (fun _ => none) (fun tag => some { tag := tag, addr := ea })

/-- Effective address: rs1 + sign-extended imm (R94). -/
def Cobble.ea (k : Cobble) (rs1 : BitVec 6) (imm : BitVec 12) : W64 := k.int rs1 + imm.signExtend 64

/-- An integer load of major `op`, selector `sel`. -/
def intLoad (op sel size : Nat) (signed : Bool) (c : Nat) (rd rs1 : BitVec 6) (imm : BitVec 12) (s : State) : Res :=
  issue c (wRKs op rd rs1 sel imm) [rd, rs1] []
    (fun k s => s.load c (.int ((regIdx k rd).getD 0)) size signed (k.ea rs1 imm)) s

def execLdB (c : Nat) (rd rs1 : BitVec 6) (imm : BitVec 12) (s : State) : Res := intLoad 0xA 0 1 true c rd rs1 imm s
def execLdBu (c : Nat) (rd rs1 : BitVec 6) (imm : BitVec 12) (s : State) : Res := intLoad 0xA 1 1 false c rd rs1 imm s
def execLdH (c : Nat) (rd rs1 : BitVec 6) (imm : BitVec 12) (s : State) : Res := intLoad 0xA 2 2 true c rd rs1 imm s
def execLdHu (c : Nat) (rd rs1 : BitVec 6) (imm : BitVec 12) (s : State) : Res := intLoad 0xA 3 2 false c rd rs1 imm s
def execLdW (c : Nat) (rd rs1 : BitVec 6) (imm : BitVec 12) (s : State) : Res := intLoad 0xB 0 4 true c rd rs1 imm s
def execLdWu (c : Nat) (rd rs1 : BitVec 6) (imm : BitVec 12) (s : State) : Res := intLoad 0xB 1 4 false c rd rs1 imm s
def execLdD (c : Nat) (rd rs1 : BitVec 6) (imm : BitVec 12) (s : State) : Res := intLoad 0xB 2 8 false c rd rs1 imm s

def execFldS (c : Nat) (rd rs1 : BitVec 6) (imm : BitVec 12) (s : State) : Res :=
  issue c (wRKs 0xC rd rs1 0 imm) [rs1] [rd] (fun k s => s.load c (.fp rd.toNat true) 4 false (k.ea rs1 imm)) s
def execFldD (c : Nat) (rd rs1 : BitVec 6) (imm : BitVec 12) (s : State) : Res :=
  issue c (wRKs 0xC rd rs1 1 imm) [rs1] [rd] (fun k s => s.load c (.fp rd.toNat false) 8 false (k.ea rs1 imm)) s

/-- An integer store with selector `sel`. -/
def intStore (sel size c : Nat) (rs2 rs1 : BitVec 6) (imm : BitVec 12) (s : State) : Res :=
  issue c (wRKs 0xE rs2 rs1 sel imm) [rs2, rs1] [] (fun k s => s.store c size (k.int rs2) (k.ea rs1 imm)) s

def execStB (c : Nat) (rs2 rs1 : BitVec 6) (imm : BitVec 12) (s : State) : Res := intStore 0 1 c rs2 rs1 imm s
def execStH (c : Nat) (rs2 rs1 : BitVec 6) (imm : BitVec 12) (s : State) : Res := intStore 1 2 c rs2 rs1 imm s
def execStW (c : Nat) (rs2 rs1 : BitVec 6) (imm : BitVec 12) (s : State) : Res := intStore 2 4 c rs2 rs1 imm s
def execStD (c : Nat) (rs2 rs1 : BitVec 6) (imm : BitVec 12) (s : State) : Res := intStore 3 8 c rs2 rs1 imm s

def execFstS (c : Nat) (rs2 rs1 : BitVec 6) (imm : BitVec 12) (s : State) : Res :=
  issue c (wRKs 0xF rs2 rs1 0 imm) [rs1] [rs2] (fun k s => s.store c 4 (k.fp rs2) (k.ea rs1 imm)) s
def execFstD (c : Nat) (rs2 rs1 : BitVec 6) (imm : BitVec 12) (s : State) : Res :=
  issue c (wRKs 0xF rs2 rs1 1 imm) [rs1] [rs2] (fun k s => s.store c 8 (k.fp rs2) (k.ea rs1 imm)) s

end Sys2Proof.Machine
end

