-- ==== Sys2Proof/Machine/Csr.lean ====
section
/-!
DEFINITION. The cobble's control and status registers (R108, R138, R183, R222, R280; Tables 04-8 to 04-13, 05-5 to 05-8,
07-2, 08-4, 08-7 to 08-9, 10-10 and 10-11).
-/

namespace Sys2Proof.Machine

/-! ## The watch of a cobble (R183 to R186) -/

/-- A registration of the cobble's watch leaves for the owning block: into its own sync unit, or as a packet; an object
outside the partition refuses it at once. -/
def State.register (s : State) (c : Nat) : State :=
  let b := blkOf c
  let k := s.cob c
  let w : Watch := { cid := c, obj := k.swObj, target := k.swTarget, aseq := k.aseq }
  let o := k.swObj / 16
  if o = b then s.modBlk b (fun q => { q with watchIn := q.watchIn ++ [(w, false, s.tenantOf b)] })
  else if o < nBlocks && s.samePart b o then
    (s.setCob c { k with swHeld := some w }).ni b
      { cls := 2, level := (s.blk b).cobLevel, nfl := 0, dst := o, src := b, sport := c % 256,
             pay := .watch w (s.tenantOf b) }
  else s.setCob c { k with swState := 3, ipSignal := true }

/-- A watch of the cobble is held in another block, or its withdrawal is not yet acknowledged. -/
def State.watchAway (s : State) (c : Nat) : Bool :=
  (s.cob c).swOut || (s.cob c).swHeld.isSome

/-- The watch in the cobble's own block is withdrawn at once. -/
def State.dropLocalWatch (s : State) (c : Nat) : State :=
  s.modBlk (blkOf c) (fun q => { q with
    lwatch := q.lwatch.filter (fun w => w.cid != c),
    watchIn := q.watchIn.filter (fun e => e.1.cid != c || e.2.1) })

/-- A write of SYNCWATCH takes effect (R183): the watch is withdrawn, IPEND.SIGNAL clears, ARM = 1 registers anew. -/
def State.swWrite (s : State) (c : Nat) (v : W64) : State :=
  let s := s.dropLocalWatch c
  let obj := bits v.toNat 32 13
  let s := s.modCob c (fun k => { k with
    swObj := obj, swTarget := v.toNat % 2 ^ 31, ipSignal := false, swState := 0 })
  if v.getLsbD 63 then
    (s.modCob c (fun k => { k with swState := 1, aseq := (k.aseq + 1) % 16 })).register c
  else s

/-- A write of SYNCWATCH reaches issue: it waits for the acknowledgement of a withdrawal from another block, sent once. -/
def State.swTry (s : State) (c : Nat) (v : W64) : Bool × State :=
  let k := s.cob c
  if k.swOut then (false, s)
  else match k.swHeld with
    | none => (true, s.swWrite c v)
    | some w =>
      let b := blkOf c
      (false, (s.setCob c { k with swOut := true }).ni b
        { cls := 2, level := (s.blk b).cobLevel, nfl := 0, dst := w.obj / 16, src := b, sport := c % 256,
          pay := .withdraw w })

/-! ## Lane power (R129 to R131, R252) -/

/-- A write of SVXCTL.AWAKE: 1 on a sleeping lane unit starts its wake, not in a piazza (R131, R136). -/
def Cobble.svxctl (k : Cobble) (awake : Bool) : Cobble :=
  { k with awakeReq := awake, waking := k.waking || (awake && k.asleep && !k.pz) }

/-- A write of PVCTL.AWAKE. -/
def Slot.pvctl (k : Slot) (awake : Bool) : Slot :=
  { k with awake := awake, waking := k.waking || (awake && k.asleep) }

/-! ## Fields -/

/-- AMAX layout (Table 05-7); a magnitude above 0x7F80_0000 is stored as 0x7F80_0000. -/
def amaxClamp (v : Nat) : BitVec 31 := BitVec.ofNat 31 (min (v % 2 ^ 31) 0x7F800000)

/-- WINSTATE (Table 04-12). -/
def Cobble.winstate (k : Cobble) : W64 :=
  BitVec.ofNat 64 (k.depth.toNat * 512 + k.move * 64 + k.held * 8 + k.top)

/-- SYNCWATCH as read; ARM is write-only. -/
def Cobble.syncwatch (k : Cobble) : W64 :=
  BitVec.ofNat 64 (k.swState * 2 ^ 61 + k.aseq * 2 ^ 57 + k.swObj * 2 ^ 32 + k.swTarget)

/-- PSTATUS (Table 08-7). -/
def Slot.pstatus (k : Slot) : W64 :=
  let busy := fun e => boolNat (k.fly.any (·.engine == e))
  BitVec.ofNat 64 (k.fly.length * 2 ^ 16 + 4 * busy 2 + 2 * busy 1 + busy 0)

/-- VLEN (Table 10-11). -/
def Slot.vlen (k : Slot) : W64 := BitVec.ofNat 64 (k.vlc * 2 ^ 16 + k.vlr)

/-- Is the CSR one of the piazza's (Tables 08-4 and 10-10)? -/
def pzCsr (n : Nat) : Bool := (0x90 ≤ n && n ≤ 0x96) || (0x98 ≤ n && n ≤ 0x9B)

/-- The CSR map: the value a read returns; none for a number outside the map. -/
def State.csrVal (s : State) (c n : Nat) : Option W64 :=
  let k := s.cob c
  let p := s.slotOf c
  if pzCsr n && !k.pz then none
  else match n with
    | 0x000 => some (BitVec.ofNat 64 (4 * boolNat k.satm + k.rm.toNat))
    | 0x001 => some (k.fpflags.zeroExtend 64)
    | 0x010 => some k.status
    | 0x011 => some k.winstate
    | 0x020 => some k.trbase
    | 0x021 => some k.trpc
    | 0x022 => some k.trcause
    | 0x023 => some k.trinfo
    | 0x024 => some k.trstat
    | 0x025 => some k.trlpc
    | 0x030 => some (s.shadow (islOf c))
    | 0x031 => some k.timecmp
    | 0x032 => some k.fewait
    | 0x040 => some (k.ienable.zeroExtend 64)
    | 0x041 => some ((s.ipend c).zeroExtend 64)
    | 0x042 => some (k.rstCount ++ k.rstAddr)
    | 0x050 => some (k.phaseid.zeroExtend 64)
    | 0x060 => some k.cobid
    | 0x061 => some (BitVec.ofNat 64 k.codelim)
    | 0x070 => some (BitVec.ofNat 64 (2 * boolNat k.asleep + boolNat k.awakeReq))
    | 0x071 => some (BitVec.ofNat 64 (boolNat k.amaxNan * 2 ^ 32 + k.amax.toNat))
    | 0x072 => some (k.svscale.zeroExtend 64)
    | 0x073 => some (BitVec.ofNat 64 (boolNat k.acc64))
    | 0x080 => some k.syncwatch
    | 0x090 => some p.pstatus
    | 0x091 => some k.pflags
    | 0x092 => some k.pctl
    | 0x093 => some k.pbcrec
    | 0x094 => some k.plmbase
    | 0x095 => some (BitVec.ofNat 64 (2 * boolNat p.asleep + boolNat p.awake))
    | 0x096 => some p.vlen
    | 0x098 => some (lget 0 p.pamax 0)
    | 0x099 => some (lget 0 p.pamax 1)
    | 0x09A => some (lget 0 p.pamax 2)
    | 0x09B => some (lget 0 p.pamax 3)
    | _ => none

/-- Bits of a CSR's RW fields, which CSET and CCLR act on. -/
def Cobble.csrRw (k : Cobble) (n : Nat) : Nat :=
  match n with
  | 0x000 => 7
  | 0x001 => 0x1F
  | 0x010 => 1
  | 0x020 => 2 ^ 64 - 0x800
  | 0x021 => 2 ^ 64 - 1
  | 0x024 => 2 ^ 64 - 1
  | 0x031 => 2 ^ 64 - 1
  | 0x032 => 2 ^ 64 - 1
  | 0x040 => if k.pz then 15 else 7
  | 0x070 => 1
  | 0x071 => 0x17FFFFFFF
  | 0x072 => 0xFF
  | 0x080 => 0x1FFF7FFFFFFF
  | 0x091 => 0x7FF
  | 0x092 => 0x7FF
  | 0x095 => 1
  | 0x098 => 0x17FFFFFFF
  | 0x099 => 0x17FFFFFFF
  | 0x09A => 0x17FFFFFFF
  | 0x09B => 0x17FFFFFFF
  | _ => 0

/-- Can software write some field: an RW field, or IPEND's W1C bit? -/
def Cobble.csrWritable (k : Cobble) (n : Nat) : Bool := n == 0x041 || k.csrRw n != 0

/-- PFAULT (R224) becomes pending: an entry of the trace. -/
def State.pfaultEdge (s0 s : State) (c : Nat) : State :=
  if !(s0.ipend c).getLsbD 3 && (s.ipend c).getLsbD 3 then s.traceFree c .pfault else s

/-- The RW fields of a CSR take the bits of `v` (already masked). -/
def State.csrPut (s : State) (c n : Nat) (v : Nat) : State :=
  let k := s.cob c
  let w : W64 := BitVec.ofNat 64 v
  let set := fun q => s.setCob c q
  let pam := fun i => s.modSlot (slotOfBlk (blkOf c)) (fun p => { p with
    pamax := lset p.pamax i (BitVec.ofNat 64 (v / 2 ^ 32 % 2 * 2 ^ 32 + (amaxClamp v).toNat)) })
  match n with
  | 0x000 => set { k with satm := bit v 2, rm := BitVec.ofNat 2 v }
  | 0x001 => set { k with fpflags := BitVec.ofNat 5 v }
  | 0x010 => set { k with ie := bit v 0 }
  | 0x020 => set { k with trbase := w }
  | 0x021 => set { k with trpc := w }
  | 0x024 => set { k with trstat := w }
  | 0x031 => set { k with timecmp := w }
  | 0x032 => set { k with fewait := w }
  | 0x040 => set { k with ienable := BitVec.ofNat 4 v }
  | 0x070 => set (k.svxctl (bit v 0))
  | 0x071 => set { k with amaxNan := bit v 32, amax := amaxClamp v }
  | 0x072 => set { k with svscale := BitVec.ofNat 8 v }
  | 0x080 => set { k with swObj := bits v 32 13, swTarget := v % 2 ^ 31, ipSignal := false }
  | 0x091 => State.pfaultEdge s (set { k with pflags := w }) c
  | 0x092 => State.pfaultEdge s (set { k with pctl := w }) c
  | 0x095 => s.modSlot (slotOfBlk (blkOf c)) (fun p => p.pvctl (bit v 0))
  | 0x098 => pam 0
  | 0x099 => pam 1
  | 0x09A => pam 2
  | 0x09B => pam 3
  | _ => s

/-- A CSR access that waits for the piazza's instructions in flight: PFLAGS and PSTATUS reads (R222), PAMAX (R268). -/
def State.csrHolds (s : State) (c n : Nat) (rd : Bool) : Bool :=
  (s.cob c).pz && ((rd && (n == 0x90 || n == 0x91) && !(s.slotOf c).fly.isEmpty)
    || (0x98 ≤ n && (s.slotOf c).fly.any (fun f => f.use.amax.contains (n - 0x98))))

/-- The effect of a read on the RC registers RSTADDR and PBCREC (R13). -/
def State.csrRc (s : State) (c n : Nat) : State :=
  if n = 0x042 then s.modCob c (fun k => { k with rstCount := 0, rstAddr := 0 })
  else if n = 0x093 then s.modCob c (fun k => { k with pbcrec := 0 })
  else s

def wCsr (sel : Nat) (rd rs1 : BitVec 6) (csr : BitVec 12) : W32 := wRKs 0x17 rd rs1 sel csr

/-- CRD: its rs1 field must be 0 (Table 04-14). -/
def execCrd (c : Nat) (rd rs1 : BitVec 6) (csr : BitVec 12) (s : State) : Res :=
  issue c (wCsr 0 rd rs1 csr) [rd, rs1] []
    (fun _ s =>
      let n := csr.toNat
      match s.csrVal c n with
      | none => s.illegal c (wCsr 0 rd rs1 csr)
      | some v =>
        if rs1 != 0 then s.illegal c (wCsr 0 rd rs1 csr)
        else if s.csrHolds c n true then s
        else
          let s := s.csrRc c n
          s.retire c ((s.cob c).setInt rd v)) s

/-- CWR, CSET and CCLR: the map and writability checks, then the write `f`; none while the write waits. -/
def csrModify (sel c : Nat) (rd rs1 : BitVec 6) (csr : BitVec 12) (f : State → W64 → Nat → Bool × State)
    (s : State) : Res :=
  issue c (wCsr sel rd rs1 csr) [rd, rs1] []
    (fun k s =>
      let n := csr.toNat
      match s.csrVal c n with
      | none => s.illegal c (wCsr sel rd rs1 csr)
      | some v =>
        if rd != 0 then s.illegal c (wCsr sel rd rs1 csr)
        else if !k.csrWritable n then s.trap c 5 (BitVec.ofNat 64 n)
        else if s.csrHolds c n false then s
        else
          let (ok, s) := f s v n
          if ok then s.retire c (s.cob c) else s) s

/-- CWR: RW fields take the value, a 1 clears IPEND.RSTERR, SYNCWATCH arms or withdraws (R108, R183). -/
def execCwr (c : Nat) (rd rs1 : BitVec 6) (csr : BitVec 12) (s : State) : Res :=
  csrModify 1 c rd rs1 csr
    (fun s _ n =>
      let k := s.cob c
      let v := k.int rs1
      if n = 0x080 then s.swTry c v
      else if n = 0x041 then (true, if v.getLsbD 2 then s.setCob c { k with ipRsterr := false } else s)
      else (true, s.csrPut c n (v.toNat &&& k.csrRw n))) s

/-- CSET: IPEND has no RW field, so it stays (R108). -/
def execCset (c : Nat) (rd rs1 : BitVec 6) (csr : BitVec 12) (s : State) : Res :=
  csrModify 2 c rd rs1 csr
    (fun s v n =>
      let k := s.cob c
      (true, s.csrPut c n ((v.toNat ||| (k.int rs1).toNat) &&& k.csrRw n))) s

def execCclr (c : Nat) (rd rs1 : BitVec 6) (csr : BitVec 12) (s : State) : Res :=
  csrModify 3 c rd rs1 csr
    (fun s v n =>
      let k := s.cob c
      (true, s.csrPut c n ((v &&& ~~~ k.int rs1).toNat &&& k.csrRw n))) s

end Sys2Proof.Machine
end

