-- ==== Sys2Proof/Machine/FullEmpty.lean ====
section
/-!
DEFINITION. The full/empty instructions, their waits and wakes (R99 to R101, R175 to R177; Table 04-6).
-/

namespace Sys2Proof.Machine

/-- Does the instruction behave as if a FENCE came before it (R102)? -/
def FeOp.fenced (op : FeOp) : Bool :=
  match op with
  | .ldwf => false
  | .lde => false
  | _ => true

/-- An FE instruction completes: a load's word is written zero-extended, the pipeline moves on. -/
def Cobble.feDone (k : Cobble) (w : FeWait) (v : List Byte) : Cobble :=
  let k := match w.op with
    | .ldwf => k.setIntIdx w.rd (BitVec.ofNat 64 (ofBytes (v.take 4)))
    | .lde => k.setIntIdx w.rd (BitVec.ofNat 64 (ofBytes (v.take 4)))
    | _ => k
  { k.adv with hold := .none, feSince := none }

/-- A satisfied FE store of the scratchpad enters the store buffer, which its implied FENCE has emptied, and leaves it in the
instruction's own bank-step with the FE bit, so that test, data and FE bit are indivisible (R96, R100, R102). -/
def State.feStore (s : State) (c : Nat) (w : FeWait) (flat : Nat) : State :=
  let s := if lget 0 s.upset (rowOf flat) = 1 then s.fixRow (rowStart flat) else s
  (((s.stPush c { off := flat % 16384, size := 4, data := w.data.setWidth 64 }).stDrain c 4)).setFe flat true

/-- The test and update of an FE instruction at a memory that the pipeline reaches itself: its scratchpad, or as an access of
a wave its own part of a piazza store (R100, R217). Answers as `feAt`. -/
def State.feOwn (s : State) (c : Nat) (w : FeWait) (flat : Nat) : Nat × List Byte × State :=
  let d := toBytes 4 w.data.toNat
  let store : Bool := w.op = .stwe || w.op = .stf
  if flat < bsBase then
    if store && w.op.ready (s.feBit flat) then (0, [], (s.readRow flat).2.feStore c w flat) else s.feAt w.op flat d
  else
    let (v, t) := s.wave1 c { key := 0, adr := flat, len := 4, fe := some (w.op, d) }
    if !w.op.ready (s.feBit flat) then (5, [], t)
    else if store || w.op = .purge then (0, [], t)
    else match v with
      | some v => (0, v, t)
      | none => (4, [], t)

/-- Tries an FE wait `w` at a memory the pipeline reaches itself. -/
def State.feTry (s : State) (c : Nat) (w : FeWait) (flat : Nat) : State :=
  let (st, v, s) := s.feOwn c w flat
  if st = 0 then
    let waited := (s.cob c).hold != .none
    let s := s.setCob c ((s.cob c).feDone w v)
    if waited then s.endWait c else s
  else if st = 4 then s.trap c 6 w.addr
  else
    let s := s.setCob c { s.cob c with hold := .fe { w with phase := 0 } }
    if w.tgt = 1 then s.feWatch c ((flat - bsBase) % 2097152 / 4) w.op.awaits else s

/-- Sends an FE request to its target; the cobble holds issue until the answer (R176, R177), and before that until the
request is admitted (R144, R316). -/
def State.feSend (s : State) (c : Nat) (w : FeWait) (t : Tgt) : State :=
  (s.setCob c { s.cob c with hold := .fe { w with phase := if s.instant c t then 2 else 4 } }).sendCob c 255 t
    { kind := .fe w.op, space := 0, off := 0, size := 4, data := toBytes 4 w.data.toNat, mask := 15 }

/-- Is the target the own block store (waits by watch), or another memory (waits by resend)? -/
def feTgt (c : Nat) (t : Tgt) : Nat :=
  match t with
  | .scr _ => 0
  | .bs _ => 1
  | .die 0 b _ _ => if b = blkOf c then 1 else 2
  | _ => 2

/-- An FE instruction holds at issue: its count of FEWAIT runs from the first time (R101). -/
def State.feHeld (s : State) (c : Nat) (ea : W64) : State :=
  if (s.cob c).feSince.isSome then s else s.modCob c (fun k => { k with feSince := some (s.ticks, ea) })

/-- An FE instruction reaches issue (R99 to R102). -/
def State.feIssue (s : State) (c : Nat) (op : FeOp) (rd : Nat) (data : W32) (ea : W64) : State :=
  match s.target c ea true with
  | .bad => s.trap c 5 ea
  | t =>
    if s.mustHold c t then s.feHeld c ea
    else if ea.toNat % 4 != 0 then s.trap c 4 ea
    else if op.fenced && !s.drained c then s.feHeld c ea
    else
      let start := match (s.cob c).feSince with
        | some e => e.1
        | none => s.ticks
      let w : FeWait := { op := op, rd := rd, addr := ea, tgt := feTgt c t, data := data, start := start, phase := 0 }
      match t with
      | .scr off =>
        let s := match youngest (s.cob c).stbuf off 4 with
          | none => s
          | some i => s.stDrain c (i + 1)
        s.feTry c w (scrAddr c off)
      | _ =>
        if s.ownWave c t then s.feTry c w (bsAddr (blkOf c) t.offset) else s.feSend c w t

def feLoad (op : FeOp) (sel c : Nat) (rd rs1 : BitVec 6) (imm : BitVec 12) (s : State) : Res :=
  issue c (wRKs 0x10 rd rs1 sel imm) [rd, rs1] []
    (fun k s => s.feIssue c op ((regIdx k rd).getD 0) 0 (k.ea rs1 imm)) s

def execLdwf (c : Nat) (rd rs1 : BitVec 6) (imm : BitVec 12) (s : State) : Res := feLoad .ldwf 0 c rd rs1 imm s
def execLde (c : Nat) (rd rs1 : BitVec 6) (imm : BitVec 12) (s : State) : Res := feLoad .lde 1 c rd rs1 imm s

def feStore (op : FeOp) (sel c : Nat) (rs2 rs1 : BitVec 6) (imm : BitVec 12) (s : State) : Res :=
  issue c (wRKs 0x11 rs2 rs1 sel imm) [rs2, rs1] []
    (fun k s => s.feIssue c op 0 ((k.int rs2).setWidth 32) (k.ea rs1 imm)) s

def execStwe (c : Nat) (rs2 rs1 : BitVec 6) (imm : BitVec 12) (s : State) : Res := feStore .stwe 0 c rs2 rs1 imm s
def execStf (c : Nat) (rs2 rs1 : BitVec 6) (imm : BitVec 12) (s : State) : Res := feStore .stf 1 c rs2 rs1 imm s

/-- PURGE: its rs2 field must be 0 (Table 04-14). -/
def execPurge (c : Nat) (rs2 rs1 : BitVec 6) (imm : BitVec 12) (s : State) : Res :=
  issue c (wRKs 0x11 rs2 rs1 2 imm) [rs2, rs1] []
    (fun k s =>
      if rs2 != 0 then s.illegal c (wRKs 0x11 rs2 rs1 2 imm)
      else s.feIssue c .purge 0 0 (k.ea rs1 imm)) s

/-- The answer to an FE request reaches the waiting cobble (R95, R176, R177). -/
def State.feAnswer (s : State) (c : Nat) (w : FeWait) (a : Ans) : State :=
  if a.status = 0 then (s.setCob c ((s.cob c).feDone w a.data)).endWait c
  else if a.status = 5 then
    let ph := if w.tgt = 1 then
        (if (s.blk (blkOf c)).fewatch.any (fun e => e.1 = c % 256) then 0 else 1)
      else 3
    s.setCob c { s.cob c with hold := .fe { w with phase := ph } }
  else
    let s := s.endWait c
    s.trap c (if a.status = 4 then 6 else 9) w.addr

/-- FE_WAKE_SCRATCHPAD: the waiting instruction retries after a fill or empty of its word (R100). -/
def execFeWakeScratchpad (c : Nat) (s : State) : Res :=
  onCob c s fun s =>
    match (s.cob c).hold with
    | .fe w =>
      if s.coreUp c && w.tgt = 0 && w.phase = 1 then s.feTry c w (scrAddr c (w.addr.toNat % 2 ^ 14)) else s
    | _ => s

/-- FE_WAKE_BLOCK_STORE: the watched FE bit changed and the instruction is issued again (R176). -/
def execFeWakeBlockStore (c : Nat) (s : State) : Res :=
  onCob c s fun s =>
    match (s.cob c).hold with
    | .fe w =>
      let off := w.addr.toNat % 2 ^ 21
      let t := Tgt.bs off
      if !(s.coreUp c && w.tgt = 1 && w.phase = 1) then s
      else if s.ownWave c t then s.feTry c w (bsAddr (blkOf c) off)
      else if s.mustHold c t then s
      else s.feSend c w t
    | _ => s

/-- REMOTE_FE_RESEND: a NOT_READY request is sent again (R177). -/
def execRemoteFeResend (c : Nat) (s : State) : Res :=
  onCob c s fun s =>
    match (s.cob c).hold with
    | .fe w =>
      if s.coreUp c && w.tgt = 2 && w.phase = 3 then s.feSend c w (s.target c w.addr true) else s
    | _ => s

/-- The request of a cobble that nobody has admitted yet is withdrawn: it has had no effect. -/
def State.withdraw (s : State) (c : Nat) : State :=
  s.modBlk (blkOf c) (fun k => { k with
    waitq := k.waitq.filter (fun a => a.remote || a.sport != c % 256),
    niq := k.niq.filter (fun p => match p.pay with
      | .acc _ => p.sport != c % 256
      | _ => true) })

/-- Has an FE instruction of the cobble waited FEWAIT ticks since it first reached issue (R101)? -/
def State.feOver (s : State) (c start : Nat) : Bool :=
  let k := s.cob c
  k.fewait != 0 && decide (start + k.fewait.toNat ≤ s.ticks)

/-- FE_TIMEOUT: an FE instruction has waited FEWAIT ticks, in its wait or held at issue; the word stays as it is (R101). A
request in flight is answered first (notes/assumptions/9.md). -/
def execFeTimeout (c : Nat) (s : State) : Res :=
  onCob c s fun s =>
    match (s.cob c).hold, (s.cob c).feSince with
    | .fe w, _ =>
      if w.phase != 2 && s.feOver c w.start then (((s.withdraw c).feUnwatch c).endWait c).trap c 8 w.addr else s
    | .none, some (start, ea) => if s.mayIssue c && s.feOver c start then s.trap c 8 ea else s
    | _, _ => s

end Sys2Proof.Machine
end

