-- ==== Sys2Proof/Machine/CoreEvents.lean ====
section
/-!
DEFINITION. The events of a core: interrupts, deferred traps, the timer, the store buffer, and the answers to its loads
and stores (R95, R96, R102, R104, R105, R538).
-/

namespace Sys2Proof.Machine

/-- Is an FE request of the core in flight? Its answer comes before any abandonment (notes/assumptions/9.md). -/
def Cobble.feFlying (k : Cobble) : Bool :=
  match k.hold with
  | .fe w => w.phase == 2
  | _ => false

/-- May a trap or interrupt be taken at the core's next boundary? -/
def State.atBoundary (s : State) (c : Nat) : Bool :=
  let k := s.cob c
  s.coreUp c && k.run == .running && !k.halted && !k.rstHold && !k.feFlying

/-- A hold is abandoned: an FE wait ends, its watch with it, and a request not yet admitted is withdrawn (R101, R104). -/
def State.unhold (s : State) (c : Nat) : State :=
  match (s.cob c).hold with
  | .none => s
  | .adm _ _ => (s.withdraw c).modCob c (fun k => { k with hold := .none })
  | _ => (((s.withdraw c).feUnwatch c).modCob c (fun k => { k with hold := .none })).endWait c

/-- TRINFO of an interrupt (Table 04-7): 0, the object, RSTADDR, 0. -/
def Cobble.intInfo (k : Cobble) (n : Nat) : W64 :=
  if n = 1 then BitVec.ofNat 64 k.swObj else if n = 2 then k.rstCount ++ k.rstAddr else 0

/-- INTERRUPT_ENTRY: the lowest enabled pending interrupt, after any deferred trap (R104, R538). -/
def execInterruptEntry (c : Nat) (s : State) : Res :=
  onCob c s fun s0 =>
    let s := s0.settleWait c
    let k := s.cob c
    match s.dueBit c with
    | none => s
    | some n =>
      if s.atBoundary c && k.ie && !k.tw && k.deferredDue.isNone then
        let s := s.unhold c
        s.trap c (16 + n) ((s.cob c).intInfo n)
      else s

/-- DEFERRED_TRAP: one failed load, in the order of the answers (R538). -/
def execDeferredTrap (c : Nat) (s : State) : Res :=
  onCob c s fun s =>
    let k := s.cob c
    match k.deferredDue with
    | none => s
    | some d =>
      if s.atBoundary c then
        let s := s.unhold c
        let s := s.modCob c (fun q => { q with deferred := q.deferred.erase d })
        if d.tw then s.exhaust c else s.trap c d.cause d.info d.lpc
      else s

/-- TIMER_INTERRUPT: IPEND.TIMER is 1 exactly while the shadow has reached TIMECMP; a WAIT that it ends is over. -/
def execTimerInterrupt (c : Nat) (s : State) : Res := onCob c s fun s => s.settleWait c

/-- STORE_BUFFER_WRITE: the oldest entry reaches the scratchpad. -/
def execStoreBufferWrite (c : Nat) (s : State) : Res := onCob c s fun s => s.stWrite c

/-- The answer of a load. -/
def State.loadAnswer (s : State) (c : Nat) (a : Ans) : State :=
  let k := s.cob c
  match k.loads.find? (fun l => l.tag = a.tag) with
  | none => s
  | some l =>
    let k := { k with loads := k.loads.erase l }
    if a.status = 0 then s.setCob c (k.setDest l.dest (loadValue l.dest l.size l.signed a.data))
    else s.setCob c { k with deferred := k.deferred ++
      [{ cause := if a.status = 4 then 6 else 9, info := l.addr, lpc := l.pc ||| (1#64 <<< 63), tw := l.tw }] }

/-- GLOBAL_LOAD_ANSWER: the oldest answer reaches the cobble; a failed load waits as a deferred trap. -/
def execGlobalLoadAnswer (c : Nat) (s : State) : Res :=
  onCob c s fun s =>
    let k := s.cob c
    match k.ans with
    | [] => s
    | a :: rest =>
      let s := s.setCob c { k with ans := rest }
      match k.hold with
      | .fe w => if a.tag = 255 then s.feAnswer c w a else s.loadAnswer c a
      | _ => s.loadAnswer c a

/-- Takes the first store answer that satisfies a test. -/
def Cobble.takeStore (k : Cobble) (p : Ans → Bool) : Option (PendStore × Cobble) :=
  match k.stAns.find? p with
  | none => none
  | some a =>
    match k.stores.find? (fun x => x.tag = a.tag) with
    | none => none
    | some x => some (x, { k with stAns := k.stAns.erase a, stores := k.stores.erase x })

/-- POSTED_STORE_ACK: an accepted store is no longer outstanding. -/
def execPostedStoreAck (c : Nat) (s : State) : Res :=
  onCob c s fun s =>
    match (s.cob c).takeStore (fun a => a.status == 0) with
    | none => s
    | some (_, k) => s.setCob c k

/-- POSTED_STORE_REFUSED: RSTERR pends, RSTADDR keeps the first address and the count (R95). -/
def execPostedStoreRefused (c : Nat) (s : State) : Res :=
  onCob c s fun s =>
    match (s.cob c).takeStore (fun a => a.status != 0) with
    | none => s
    | some (x, k) =>
      s.setCob c { k with
        ipRsterr := true, rstCount := satInc k.rstCount,
        rstAddr := if k.rstCount = 0 then x.addr.setWidth 56 else k.rstAddr }

end Sys2Proof.Machine
end

