-- ==== Sys2Proof/Machine/MemEvents.lean ====
section
/-!
DEFINITION. The events of a block's memories: bank service, background and external accesses, correction, poison and
scrub, remote accesses and windows, the cache quarters (R139 to R173, R499; Tables 06-1 to 06-7).
-/

namespace Sys2Proof.Machine

/-! ## Bank service -/

/-- A bank has an idle step: its starvation is over (R166). -/
def Block.idleStep (k : Block) (n : Nat) : Block := { k with starved := k.starved.filter (· != n) }

/-- BLOCK_STORE_BANK_SERVICE: the bank serves its oldest request, then admits up to four that wait; a queue left empty gives it
an idle step next (R144, R145). -/
def execBlockStoreBankService (b bank : Nat) (s : State) : Res :=
  onBlk b s fun s =>
    let k := s.blk b
    match lget [] k.bankq bank with
    | [] => s.admit4 b bank
    | a :: rest =>
      let s := (s.setBlk b { k with bankq := cset [] k.bankq bank rest }).served b a
      let s := s.admit4 b bank
      if (lget [] (s.blk b).bankq bank).isEmpty then s.modBlk b (fun k => k.idleStep bank) else s

/-- Banks of a block: 0 to 63 the block store's, 64 + 4 × cobble + bank the scratchpads'. -/
def nBanks : Nat := 64 + 1024

/-- First byte of row `r` of bank `n` of block `b` (R141, R143). -/
def bankRow (b n r : Nat) : Nat :=
  if n < 64 then bsAddr b (r * 512 + n * 8) else scrAddr (b * 256 + (n - 64) / 4) (r * 16 + (n - 64) % 4 * 4)

/-- Rows of a bank. -/
def bankRows (n : Nat) : Nat := if n < 64 then 4096 else 1024

/-- The bank of a block that holds a row, by the row's first byte. -/
def rowBank (a : Nat) : Nat := if a < bsBase then 64 + a / 16384 % 256 * 4 + a / 4 % 4 else bsBank ((a - bsBase) % 2097152)

/-- The background requester of an access (R140): 0 DMA, 1 stream, 2 network interface; 3 is scrub. -/
def bgClass (a : Acc) : Nat := if a.sport = 257 && !a.remote then 0 else if a.sport = 258 && !a.remote then 1 else 2

/-- The oldest background access of a requester that waits for scratchpad bank `n`. -/
def Block.bgHead (k : Block) (n q : Nat) : Option Acc := k.bg.find? (fun a => 64 + a.cob * 4 + a.off / 4 % 4 == n && bgClass a == q)

/-- The requester that takes the next idle step of scratchpad bank `n`: round-robin from the one after the last winner (R140). -/
def Block.bgTurn (k : Block) (n : Nat) : Option Nat :=
  let last := lget 3 k.bgLast n
  ((List.range 4).map (fun i => (last + 1 + i) % 4)).find? (fun q => if q = 3 then k.scrubDue.contains n else (k.bgHead n q).isSome)

/-- The due row of a bank is read, in an idle step (R165). -/
def State.scrubRow (s : State) (b n : Nat) : State :=
  let k := s.blk b
  let r := lget 0 k.scrubPos n
  let s := s.setBlk b { k.idleStep n with
    scrubDue := k.scrubDue.filter (· != n), scrubPos := lset k.scrubPos n ((r + 1) % bankRows n), bgLast := lset k.bgLast n 3 }
  (s.readRow (bankRow b n r) true).2

/-- An idle step of scratchpad bank `n` goes to its next background requester. -/
def State.bgStep (s : State) (b n : Nat) : State :=
  let k := s.blk b
  match k.bgTurn n with
  | none => s
  | some q =>
    match k.bgHead n q with
    | some a => (s.setBlk b { k.idleStep n with bg := k.bg.erase a, bgLast := lset k.bgLast n q }).served b a
    | none => s.scrubRow b n

/-- BACKGROUND_BANK_ACCESS: a step that the foreground leaves idle in the four banks of a scratchpad (R43, R98, R140). -/
def execBackgroundBankAccess (b cob : Nat) (s : State) : Res :=
  onBlk b s fun s => (List.range 4).foldl (fun s i => s.bgStep b (64 + cob * 4 + i)) s

/-- Is an access a remote FE operation? -/
def Acc.remoteFe (a : Acc) : Bool :=
  a.remote && match a.kind with
  | .fe _ => true
  | _ => false

/-- REMOTE_FE_OPERATION: the admitted remote FE operation whose turn it is at its bank, indivisibly (R147, R177): at the head
of a block-store bank's queue, else next at a scratchpad bank. In a piazza it goes with a wave (R150). -/
def execRemoteFeOperation (b : Nat) (s : State) : Res :=
  onBlk b s fun s =>
    let k := s.blk b
    match k.bankq.find? (fun e => e.2.head?.any Acc.remoteFe) with
    | some (bank, a :: rest) => ((s.setBlk b { k with bankq := cset [] k.bankq bank rest }).served b a).admit4 b bank
    | _ =>
      let ready := fun (a : Acc) => let n := 64 + a.cob * 4 + a.off / 4 % 4
        a.remoteFe && k.bgTurn n == some 2 && k.bgHead n 2 == some a
      match k.bg.find? ready with
      | some a => s.bgStep b (64 + a.cob * 4 + a.off / 4 % 4)
      | none => s

/-- EXTERNAL_WAVE: the slot's blocks each commit their oldest external access to a step that no instruction has reserved
(R150, R215). -/
def execExternalWave (b : Nat) (s : State) : Res :=
  onBlk b s fun s => (s.wave (slotOfBlk b) 0x3FFF []).2.2

/-! ## Correction, poison and scrub -/

/-- Has the bank of a row an idle step: in cobble mode no request of a block-store bank waits (R163, Table 06-1)? -/
def State.bankIdle (s : State) (row : Nat) : Bool :=
  let b := blkOfFlat row
  let k := s.blk b
  let n := rowBank row
  s.pzActive b || 64 ≤ n || ((lget [] k.bankq n).isEmpty && !k.waitq.any (fun a => bsBank a.off == n))

/-- CORRECTION_WRITE_BACK: a corrected row, named by its first byte, is written back in its bank's next idle step (R163). -/
def execCorrectionWriteBack (row : Nat) (s : State) : Res :=
  .next (if row ∈ s.corr && s.bankIdle row then (s.fixRow row).modBlk (blkOfFlat row) (fun k => k.idleStep (rowBank row)) else s)

/-- POISON_WRITE: a row with an uncorrectable error is written as poisoned, in its bank's next idle step (R163, R164). -/
def execPoisonWrite (row : Nat) (s : State) : Res :=
  .next (if row ∈ s.poisonDue && s.bankIdle row then
      { s with upset := cset 0 s.upset (rowOf row) 0, psn := cset false s.psn (rowOf row) true,
               poisonDue := s.poisonDue.filter (· != row) }.modBlk (blkOfFlat row) (fun k => k.idleStep (rowBank row))
    else s)

/-- SCRUB_ROW_DUE: the bank's next row falls due; none while EN = 0 (R165). -/
def execScrubRowDue (b n : Nat) (s : State) : Res :=
  onBlk b s fun s =>
    let k := s.blk b
    if n < nBanks && k.scrubctl.getLsbD 4 then s.setBlk b { k with scrubDue := insertNat n k.scrubDue } else s

/-- SCRUB_READ: the due row is read in an idle bank-step: no request waits in a block-store bank's queue, and among the
background requesters of a scratchpad bank it is scrub's turn (R140, R165; Table 06-1). -/
def execScrubRead (b n : Nat) (s : State) : Res :=
  onBlk b s fun s =>
    let k := s.blk b
    let turn : Bool := if n < 64 then s.bankIdle (bankRow b n 0) else k.bgTurn n == some 3
    if n ∈ k.scrubDue && turn then s.scrubRow b n else s

/-- SCRUB_STARVED: once until the bank has an idle step again (R166). -/
def execScrubStarved (b n : Nat) (s : State) : Res :=
  onBlk b s fun s =>
    let k := s.blk b
    if n < nBanks && !(n ∈ k.starved) then
      (s.setBlk b { k with
        starved := k.starved ++ [n], starveBs := k.starveBs || n < 64, starveSp := k.starveSp || 64 ≤ n }).logBlk b 4
          [boolNat (64 ≤ n), n]
    else s

/-- CE_RATE: CECNT has reached a multiple of 2^CETHR (R499). -/
def execCeRate (b : Nat) (s : State) : Res :=
  onBlk b s fun s =>
    let k := s.blk b
    if k.ceDue then (s.setBlk b { k with ceDue := false }).logBlk b 1 [k.cecnt.toNat] else s

/-! ## Windows (R168 to R173) -/

/-- Window fields (Table 06-6). -/
def winOpen (r : W32) : Bool := r.getLsbD 31
def winSpace (r : W32) : Nat := bits r.toNat 29 2
def winClass (r : W32) : Nat := bits r.toNat 20 4
def winPerm (r : W32) : Nat := bits r.toNat 16 3
def winHi (r : W32) : Nat := bits r.toNat 8 8
def winLo (r : W32) : Nat := bits r.toNat 0 8

/-- Does an access write or change FE state? -/
def Acc.isWrite (a : Acc) : Bool :=
  match a.kind with
  | .rd => false
  | _ => true

/-- Permissions that an access needs: RD 1 for a read, WR 2 for a write, and FE 4 as well for an FE operation; PURGE,
which empties its word, counts as a write (notes/assumptions/47.md). -/
def Acc.need (a : Acc) : Nat :=
  match a.kind with
  | .rd => 1
  | .wr => 2
  | .fe .ldwf => 5
  | .fe .lde => 5
  | .fe .stwe => 6
  | .fe .stf => 6
  | .fe .purge => 6

/-- Does window `n` admit an access (R168)? -/
def Block.winAdmits (k : Block) (n : Nat) (a : Acc) : Bool :=
  let r := lget 0 k.winCtl n
  let src := lget 0 k.winSrc n
  winOpen r && winSpace r == a.space && bit (winClass r) a.sclass && (winPerm r &&& a.need) == a.need
    && (!src.getLsbD 31 || bits src.toNat 0 6 == a.sdie)
    && (lget 0 k.winBase n).toNat ≤ a.off && a.off + a.size ≤ (lget 0 k.winLimit n).toNat + 1
    && (a.space == 0 || (winLo r ≤ a.cob && a.cob ≤ winHi r))

/-- The checks of R168. -/
def State.admits (s : State) (b : Nat) (a : Acc) : Bool :=
  let k := s.blk b
  a.tenant == s.tenantOf b
    && (a.space == 0 || (s.cob (b * 256 + a.cob)).codelim ≤ a.off)
    && (a.space != 0 || a.off + a.size ≤ cacheFrom k.nq)
    && (List.range 32).any (fun n => k.winAdmits n a)

/-- A refused remote access: WVADDR and WVSTAT latch the first and count all, the event is logged (R169). -/
def State.violation (s : State) (b : Nat) (a : Acc) : State :=
  let k := s.blk b
  let cnt := k.wvstat.toNat / 65536
  let addr := if cnt = 0 then b32 (a.space * 2 ^ 29 + (if a.space = 1 then a.cob else 0) * 2 ^ 21 + a.off) else k.wvaddr
  let low := if cnt = 0 then a.sdie * 64 + a.sclass * 16 + 8 * boolNat a.isWrite else k.wvstat.toNat % 65536
  let stat := b32 ((if cnt = 0xFFFF then cnt else cnt + 1) * 65536 + low)
  let s := (s.setBlk b { k with wvaddr := addr, wvstat := stat }).logBlk b 5 [addr.toNat, stat.toNat]
  let s := if a.tenant = s.tenantOf b then s else s.logBlk b 0x41 [a.tenant.toNat, a.sclass, a.sdie]
  s.reply b a 2 []

/-- REMOTE_ACCESS: the oldest access that entered through the network interface is checked, then joins its unit; the network
interface presents no further one while a bank has not admitted an earlier one (R146, R168, R312). -/
def execRemoteAccess (b : Nat) (s : State) : Res :=
  onBlk b s fun s =>
    let k := s.blk b
    match k.remoteIn with
    | [] => s
    | a :: rest =>
      if k.waitq.any (·.remote) then s
      else if !a.granted && !s.admits b a then (s.setBlk b { k with remoteIn := rest }).violation b a
      else (s.setBlk b { k with admSeq := k.admSeq + 1, remoteIn := rest }).arrive b { a with seq := k.admSeq }

/-! ## Register writes of programs -/

/-- The oldest register access that waits in a block, if it satisfies a test; the state without it. -/
def State.popCtl (s : State) (b : Nat) (p : Acc → Bool) : Option (Acc × State) :=
  let k := s.blk b
  match k.ctlIn with
  | [] => none
  | a :: rest => if p a then some (a, s.setBlk b { k with ctlIn := rest }) else none

/-- The value written. -/
def Acc.val (a : Acc) : Nat := ofBytes a.data

/-- Is an access a write of the register at `off`? -/
def Acc.writes (a : Acc) (off : Nat) : Bool := a.kind == .wr && a.off == off

/-- Is an access a write of some WINn_CTL? Its window number. -/
def Acc.winCtl (a : Acc) : Bool := a.kind == .wr && isWinOff a.off && a.off % 16 == 0
def Acc.winNo (a : Acc) : Nat := (a.off - 0x1000) / 16

/-- Writable bits of WINn_CTL. -/
def winCtlMask : Nat := 0xE0F7FFFF

/-- Permissions of WPOLICY for a class (Table 06-6). -/
def polPerm (p : W32) (cls : Nat) : Nat := bits p.toNat (3 * cls) 3

/-- May a window open with these fields (R172)? -/
def State.winOk (s : State) (b n : Nat) (r : W32) : Bool :=
  let k := s.blk b
  let base := (lget 0 k.winBase n).toNat
  let lim := (lget 0 k.winLimit n).toNat
  let pol := (s.isl (islOfBlk b)).wpolicy
  let sp := winSpace r
  let al := if sp = 0 then 8 else 4
  sp ≤ 1 && base ≤ lim && base % al == 0 && (lim + 1) % al == 0
    && (sp == 0 || (lim ≤ 16383 && winLo r ≤ winHi r))
    && winClass r != 0 && winPerm r != 0
    && (List.range 4).all (fun c => !bit (winClass r) c || (winPerm r &&& polPerm pol c) == winPerm r)
    && (sp == 0 || winClass r == 1 || pol.getLsbD 12)
    && (sp == 1 || lim < cacheFrom (max k.nq k.nqNew))

/-- WINDOW_OPEN: a WINn_CTL write sets OPEN from 0 to 1, or is refused (R171, R172). -/
def execWindowOpen (b : Nat) (s : State) : Res :=
  onBlk b s fun s =>
    match s.popCtl b (fun a => a.winCtl && !winOpen (lget 0 (s.blk b).winCtl a.winNo) && bit a.val 31) with
    | none => s
    | some (a, s) =>
      let r := b32 (a.val &&& winCtlMask)
      if a.winNo < (s.blk b).winAlloc && s.winOk b a.winNo r then
        (s.modBlk b (fun k => { k with winCtl := cset 0 k.winCtl a.winNo r })).reply b a 0 []
      else s.reply b a 6 []

/-- WINDOW_CLOSE: a write of OPEN = 0 to an open window with its other fields unchanged closes it for later arrivals: an access
that has arrived and waits keeps the admission it has now; the write is acknowledged later (R172, R173). -/
def execWindowClose (b : Nat) (s : State) : Res :=
  onBlk b s fun s =>
    match s.popCtl b (fun a => a.winCtl && winOpen (lget 0 (s.blk b).winCtl a.winNo) && !bit a.val 31) with
    | none => s
    | some (a, s) =>
      let k := s.blk b
      let old := lget 0 k.winCtl a.winNo
      let r := b32 (a.val &&& winCtlMask)
      if a.winNo < k.winAlloc && r == (old &&& 0x7FFFFFFF#32) then
        let here := k.remoteIn.map (fun x => { x with granted := x.granted || s.admits b x })
        s.setBlk b { k with
          winCtl := cset 0 k.winCtl a.winNo r, remoteIn := here,
          closing := k.closing ++ [{ acc := a, before := k.admSeq + (here.filter (·.granted)).length }] }
      else s.reply b a 6 []

/-- Is some remote access admitted before number `n` not completed at its bank, or granted and still waiting? -/
def Block.admitted (k : Block) (n : Nat) : Bool :=
  let old := fun (a : Acc) => a.remote && a.seq < n
  k.bankq.any (fun e => e.2.any old) || k.waitq.any old || k.bg.any old || k.ext.any old || k.remoteIn.any (·.granted)

/-- WINDOW_CLOSE_ACK: the oldest close is acknowledged once every access admitted before it has completed. -/
def execWindowCloseAck (b : Nat) (s : State) : Res :=
  onBlk b s fun s =>
    let k := s.blk b
    match k.closing with
    | [] => s
    | c :: rest => if k.admitted c.before then s else (s.setBlk b { k with closing := rest }).reply b c.acc 0 []

/-! ## Cache operations (R159 to R161) -/

/-- Does an open block-store window reach byte `lo` or above? -/
def Block.winAbove (k : Block) (lo : Nat) : Bool :=
  k.winCtl.any (fun e => winOpen e.2 && winSpace e.2 == 0 && lo ≤ (lget 0 k.winLimit e.1).toNat)

/-- CACHECTL_WRITE: a changed NQ runs FLUSHINV on every line, then changes the split; the write waits while an operation
runs (notes/assumptions/22.md). NQ > 0 is refused while the partition has no valid FILL binding (R288). -/
def execCachectlWrite (b : Nat) (s : State) : Res :=
  onBlk b s fun s =>
    match s.popCtl b (fun a => a.writes 0x1300 && !(s.blk b).cacheBusy) with
    | none => s
    | some (a, s) =>
      let k := s.blk b
      let nq := a.val % 8
      if 4 < nq || s.pzActive b || (k.nq < nq && k.winAbove (cacheFrom nq)) || (0 < nq && (s.fillPort b).isNone) then s.reply b a 6 []
      else if nq = k.nq then s.reply b a 0 []
      else ((s.setBlk b { k with cacheBusy := true, nqNew := nq }).cacheScan b 3 (fun _ => true)).reply b a 0 []

/-- May a CACHEOP write name its sync object: within the partition (Table 06-7)? -/
def State.ownObj (s : State) (b id : Nat) : Bool := id < 5120 && s.samePart b (id / 16)

/-- A CACHEOP write with operation `op`. -/
def cacheOp (op b : Nat) (s : State) : Res :=
  onBlk b s fun s0 =>
    match s0.popCtl b (fun a => a.writes 0x1304 && bits a.val 29 2 == op) with
    | none => s0
    | some (a, s) =>
      let k := s.blk b
      if s.engOff b 2 then s0
      else if !s.ownObj b (a.val % 2 ^ 13) then s.reply b a 6 []
      else if k.cacheBusy then (s.setBlk b { k with cacheOvr := true }).reply b a 0 []
      else
        let s := s.setBlk b { k with cacheop := b32 a.val }
        if op = 0 then s.reply b a 0 []
        else
          let lo := k.cbase.toNat / 256 * 256
          let hi := k.climit.toNat / 256 * 256
          let s := s.modBlk b (fun k => { k with cacheBusy := true })
          (s.cacheScan b op (fun x => bit a.val 31 || (lo ≤ x && x ≤ hi))).reply b a 0 []

def execCacheopNone (b : Nat) (s : State) : Res := cacheOp 0 b s
def execFlush (b : Nat) (s : State) : Res := cacheOp 1 b s
def execInv (b : Nat) (s : State) : Res := cacheOp 2 b s
def execFlushinv (b : Nat) (s : State) : Res := cacheOp 3 b s

/-- Clears bytes of memory with their FE bits, poison and upsets, from `lo` for `n` bytes. -/
def State.clearBytes (s : State) (lo n : Nat) : State :=
  let out := fun (a : Nat) => a < lo || lo + n ≤ a
  { s with
    mem := lfilter out s.mem,
    fe := lfilter (fun w => out (4 * w)) s.fe,
    psn := lfilter (fun r => r < rowOf lo || rowOf (lo + n) ≤ r) s.psn,
    upset := lfilter (fun r => r < rowOf lo || rowOf (lo + n) ≤ r) s.upset,
    corr := s.corr.filter out, poisonDue := s.poisonDue.filter out }

/-- An ADD of 1 to a sync object by an engine of block `b` (SPORT `sport`, tag `tag`, level `lv`). -/
def State.syncAdd (s : State) (b sport tag lv id : Nat) : State :=
  s.send b (id / 16) { kind := .wr, space := 2, off := id % 16 * 16 + 4, size := 4, data := toBytes 4 1, mask := 15,
                       sblk := b, sport := sport, tag := tag, level := lv, sdie := s.pos.toNat, tenant := s.tenantOf b }

/-- CACHE_OPERATION_DONE: the scan is over and no write-back is outstanding: the split changes, or the sync object of the
operation is incremented (R159, R161). A scan that found no FILL binding scans again. -/
def execCacheOperationDone (b : Nat) (s : State) : Res :=
  onBlk b s fun s =>
    let k := s.blk b
    if !k.cacheBusy || k.misses.any (·.wb) || s.engOff b 2 || 256 ≤ k.cacheUsed.length
        || s.aon.susp.any (fun x => x.engine == 2 && x.blk == b && x.id == 256 && x.verdict != 1) then s
    else if k.cacheStuck then
      let s := s.setBlk b { k with cacheStuck := false }
      if k.nq != k.nqNew then s.cacheScan b 3 (fun _ => true)
      else s.cacheScan b (bits k.cacheop.toNat 29 2) (fun x => k.cacheop.getLsbD 31 ||
        (k.cbase.toNat / 256 * 256 ≤ x && x ≤ k.climit.toNat / 256 * 256))
    else if k.nq != k.nqNew then
      let lo := cacheFrom (max k.nq k.nqNew)
      let s := s.setBlk b { k with cacheBusy := false, nq := k.nqNew, lines := [] }
      s.clearBytes (bsAddr b lo) (cacheFrom (min k.nq k.nqNew) - lo)
    else
      let s := s.setBlk b { k with cacheBusy := false }
      if !k.cacheop.getLsbD 28 then s
      else
        let tag := freshTag k.cacheUsed 256 256 0
        (s.modBlk b (fun k => { k with cacheAdd := some tag })).syncAdd b 259 tag k.cacheLevel (bits k.cacheop.toNat 0 13)

/-- CACHE_FILL_DONE: the oldest returned fill completes its line, and the waiting access goes on (R157). -/
def execCacheFillDone (b : Nat) (s : State) : Res :=
  onBlk b s fun s =>
    let k := s.blk b
    match k.engAns.find? (fun a => a.sport = 259) with
    | none => s
    | some a =>
      let s := s.setBlk b { k with engAns := k.engAns.erase a }
      match k.misses.find? (fun m => !m.wb && m.cmd.isNone && m.tag = a.tag) with
      | none => s
      | some m =>
        let s := (s.modBlk b (fun q => { q with misses := q.misses.erase m })).cachePump b
        let s := if a.status = 0 then
            let s := s.cacheFill b m.addr a.data
            if ((s.blk b).cFind m.acc.off).isSome then s.cacheDo b m.acc
            else s.deliver b { sport := m.acc.sport, tag := m.acc.tag, status := 0, data := (a.data.drop (m.acc.off % 256)).take m.acc.size }
          else s.deliver b { sport := m.acc.sport, tag := m.acc.tag, status := a.status }
        s.cacheRetry b

end Sys2Proof.Machine
end

