-- ==== Sys2Proof/Machine/Dma.lean ====
section
/-!
DEFINITION. The DMA engine of a block: descriptors, piece requests, answers, completion and failure (R292 to R303, R539).
-/

namespace Sys2Proof.Machine

/-! ## Descriptors (Tables 11-10 and 11-11) -/

/-- A signed 32-bit stride modulo 2^56. -/
def stride (n : Nat) : Nat := if n < 2 ^ 31 then n else n + 2 ^ 56 - 2 ^ 32

/-- The fields of a descriptor's 64 bytes. -/
def Desc.ofBytes (idx : Nat) (d : List Byte) : Desc :=
  let f := fun o n => Machine.ofBytes ((d.drop o).take n)
  let ctl := f 40 4
  let sy := f 44 4
  { idx := idx, src := f 0 8 % 2 ^ 56, dst := f 8 8 % 2 ^ 56, n0 := f 16 4, n1 := f 20 2, n2 := f 22 2,
    sstr1 := stride (f 24 4), sstr2 := stride (f 28 4), dstr1 := stride (f 32 4), dstr2 := stride (f 36 4),
    bind := bits ctl 24 8, prio := bits ctl 22 2, ord := bit ctl 21, idem := bit ctl 20, fill := bit ctl 19,
    syncen := bit sy 31, syncid := bits sy 16 13, inc := bits sy 0 16, timeout := f 48 4,
    user := BitVec.ofNat 64 (f 56 8) }

/-- Is some reserved field not 0 (R294)? -/
def descReserved (d : List Byte) : Bool :=
  let f := fun o n => Machine.ofBytes ((d.drop o).take n)
  f 7 1 != 0 || f 15 1 != 0 || f 40 4 % 2 ^ 19 != 0 || bits (f 44 4) 29 2 != 0 || f 52 4 != 0

/-- Bytes moved. -/
def Desc.total (d : Desc) : Nat := d.n0 * d.n1 * d.n2

/-- Address of byte n of the loop of R295. -/
def loopAddr (d : Desc) (base s1 s2 n : Nat) : Nat :=
  (base + n / d.n0 / d.n1 * s2 + n / d.n0 % d.n1 * s1 + n % d.n0) % 2 ^ 56
def Desc.srcAt (d : Desc) (n : Nat) : Nat := loopAddr d d.src d.sstr1 d.sstr2 n
def Desc.dstAt (d : Desc) (n : Nat) : Nat := loopAddr d d.dst d.dstr1 d.dstr2 n

/-- A far die-space address that a descriptor may write (R284). -/
def State.farAddr (s : State) (g : Nat) : Bool :=
  bits g 54 2 == 2 && bits g 48 6 != s.pos.toNat && bits g 44 4 ≤ 1 && bits g 35 9 < nBlocks
    && (bits g 44 4 == 1 || bits g 27 8 == 0) && g % 2 ^ 27 < (if bits g 44 4 = 0 then 2 ^ 21 else 2 ^ 14)

/-- Kind of a source or destination byte: 0 package memory, 1 this die, 2 a far die; none where it is BAD_ADDR (Table 11-9). -/
def State.dmaKind (s : State) (b : Nat) (isDst : Bool) (g : Nat) : Option Nat :=
  if isDst && s.farAddr g then some 2
  else match s.global b g with
    | .pkg _ => some 0
    | .die sp blk _ off =>
      if 2 ≤ sp || (sp = 0 && blk = b && cacheFrom (s.blk b).nq ≤ off) then none else some 1
    | _ => none

/-- Binding of a descriptor. -/
def State.sbind (s : State) (n : Nat) : W32 := lget 0 (s.isl (n / 16)).sbind (n % 16)

/-- The first and last byte of every run, with the side: destination or source (R296). -/
def Desc.ends (d : Desc) : List (Bool × Nat) :=
  (List.range (d.n1 * d.n2)).flatMap (fun r =>
    [(false, d.srcAt (r * d.n0)), (false, d.srcAt (r * d.n0 + d.n0 - 1)),
     (true, d.dstAt (r * d.n0)), (true, d.dstAt (r * d.n0 + d.n0 - 1))])

/-- Does a descriptor use BIND: some byte in package memory or on another die (R294)? -/
def State.needsBind (s : State) (b : Nat) (d : Desc) : Bool :=
  d.ends.any (fun e => s.dmaKind b e.1 e.2 == some 0 || s.dmaKind b e.1 e.2 == some 2)

/-- The checks of R296 in the order of Table 11-9: the code and the failing address. -/
def State.descCheck (s : State) (b : Nat) (c : Chan) (d : Desc) (raw : List Byte) : Option (Nat × Option Nat) :=
  let okObj := fun id => s.ownObj b id
  if descReserved raw || d.n0 = 0 || 2 ^ 24 < d.n0 || d.n1 = 0 || d.n2 = 0 || d.timeout = 0 || (d.syncen && d.inc = 0)
      || (d.syncen && !okObj d.syncid) || (c.err.getLsbD 31 && !okObj (bits c.err.toNat 0 13)) then some (2, none)
  else
    match d.ends.find? (fun e => (s.dmaKind b e.1 e.2).isNone) with
    | some e => some (3, some e.2)
    | none =>
      let need := fun k => d.ends.any (fun e => s.dmaKind b e.1 e.2 == some k)
      let r := s.sbind d.bind
      let far := fun (e : Bool × Nat) => s.dmaKind b e.1 e.2 != some 2 || sbFar r == bits e.2 48 6
      let inPart := d.bind / 16 < 10 && (s.isl (d.bind / 16)).part == s.partOfBlk b && s.partOfBlk b != 0xFF
      if (need 0 || need 2) && !(sbValid r && inPart && (!need 0 || sbKind r == 0)
          && (!need 2 || (sbKind r == 1 && d.ends.all far))) then some (4, none)
      else none

/-! ## Channels -/

def Block.chan (k : Block) (n : Nat) : Chan := lget {} k.chans n
def State.modChan (s : State) (b n : Nat) (f : Chan → Chan) : State :=
  s.modBlk b (fun k => { k with chans := lset k.chans n (f (k.chan n)) })


/-- A descriptor fails (R299): it and every later one of its channel stop, and the first failure waits to be recorded. -/
def State.dmaFail (s : State) (b n : Nat) (d : Desc) (code : Nat) (adr : Option Nat) : State :=
  s.modChan b n (fun c =>
    let age := fun (x : Desc) => (x.idx + 65536 - c.cons.toNat) % 65536
    let descs := c.descs.map (fun x => if age d ≤ age x then { x with stopped := true } else x)
    if c.stat = 3 then { c with descs := descs }
    else { c with
      stat := 3, pcode := BitVec.ofNat 8 code, pidx := BitVec.ofNat 16 d.idx, paddr := adr, puser := d.user, descs := descs })

/-! ## Tags (R310, R445) -/

/-- Tags of a channel's requests: pieces, the completion ADD, the read of a descriptor. -/
def Chan.tags (c : Chan) : List Nat :=
  c.descs.flatMap (fun d => (d.reads ++ d.writes).map (·.tag) ++ (if d.signalled then [d.sigTag] else [])) ++
    (match c.dread with
    | some (t, _, none) => [t]
    | _ => [])

/-- A tag of the engine's 256 that no request holds, nor an abandoned one. -/
def Block.dmaTag (k : Block) : Option Nat :=
  let used := (k.gone.filter (fun e => e.1 = 257)).map (·.2) ++ k.dmaGone ++ k.chans.flatMap (fun e => e.2.tags)
  (List.range 256).find? (fun t => !used.contains t)

/-- A request of the engine waits at the crossbar or at the network interface: the engine holds (R144, R298, R316). -/
def Block.dmaHeld (k : Block) : Bool :=
  k.waitq.any (fun a => a.xport == 257) || k.niq.any (fun p => p.sport == 257 && p.cls != 1)

/-- An ADD of the engine to a sync object. -/
def State.dmaAdd (s : State) (b tag level id inc : Nat) : State :=
  s.send b (id / 16) { kind := .wr, space := 2, off := id % 16 * 16 + 4, size := 4, data := toBytes 4 inc, mask := 15,
                       sblk := b, sport := 257, tag := tag, level := level, sdie := s.pos.toNat, tenant := s.tenantOf b }

/-- The ADD of 1 of a failure, at its descriptor's level (R299, R317); it waits for a tag if it must. Its answer counts for
nothing. -/
def State.dmaErr (s : State) (b level id : Nat) : State :=
  match (s.blk b).dmaTag with
  | none => s.modBlk b (fun k => { k with dmaErrs := k.dmaErrs ++ [(level, id)] })
  | some t => (s.modBlk b (fun k => { k with dmaGone := k.dmaGone ++ [t] })).dmaAdd b t level id 1

/-- A tag is free again for the oldest failure ADD that waits for one. -/
def State.dmaPump (s : State) (b : Nat) : State :=
  match (s.blk b).dmaErrs with
  | [] => s
  | (level, id) :: rest => (s.modBlk b (fun k => { k with dmaErrs := rest })).dmaErr b level id

/-! ## Starting a descriptor (R293, R296, R297) -/

/-- A channel's descriptor is there: it starts, or fails at its check; one with ORD = 1 waits for those before it, and its TIMEOUT then counts
from its start (R297, R300). -/
def State.descStart (s : State) (b ch idx start : Nat) (psn : Bool) (raw : List Byte) : State :=
  let c := (s.blk b).chan ch
  let d := { Desc.ofBytes idx raw with start := start }
  let begin := fun (s : State) (d : Desc) => s.modChan b ch (fun c => { c with stat := 1, descs := c.descs ++ [d], dread := none })
  if d.ord && !c.descs.isEmpty then s
  else if psn then (begin s { d with user := 0 }).dmaFail b ch { d with user := 0 } 1 none
  else
    let d := if d.ord then { d with start := s.ticks } else d
    match s.descCheck b c d raw with
    | some (code, adr) => (begin s d).dmaFail b ch d code adr
    | none => begin s { d with port := sbPort (s.sbind d.bind), bound := s.needsBind b d }

/-- DESCRIPTOR_START: a channel whose last descriptor has issued its last request reads the next one through the engine's
crossbar port; once the read is answered the command checks the descriptor and starts it (R293, R296, R297). -/
def execDescriptorStart (b ch : Nat) (s : State) : Res :=
  onBlk b s fun s =>
    let k := s.blk b
    let c := k.chan ch
    let idx := (c.cons.toNat + c.descs.length) % 65536
    let ready : Bool := match c.descs with
      | [] => true
      | [d] => d.rnext == d.total && d.wnext == d.total
      | _ => false
    if s.engOff b 0 || s.suspected false b ch || 2 ≤ c.stat || BitVec.ofNat 16 idx = c.prod || !ready then s
    else match c.dread with
      | some (_, start, some (st, raw)) => s.descStart b ch idx start (st != 0) raw
      | some (_, _, none) => s
      | none =>
        match k.dmaTag with
        | none => s
        | some t =>
          if k.dmaHeld then s
          else
            let off := (bits c.cfg.toNat 6 15 * 64 + idx % 2 ^ bits c.cfg.toNat 28 4 * 64) % 2 ^ 21
            ((s.modChan b ch (fun c => { c with stat := 1, dread := some (t, s.ticks, none) })).engStep b 0).send b b
              { kind := .rd, space := 0, off := off, size := 64, sblk := b, sport := 257, tag := t, sdie := s.pos.toNat,
                tenant := s.tenantOf b }

/-! ## Piece requests (R295, R297, R298, R302, R539) -/

/-- Length of the piece from byte n whose port side, if any, is the source or the destination. -/
def Desc.pieceLen (d : Desc) (n : Nat) (port : Bool) (a : Nat) : Nat :=
  let run := d.n0 - n % d.n0
  if port then min run (256 - a % 256) else min run (min (64 - d.srcAt n % 64) (64 - d.dstAt n % 64))

/-- Bytes that were read, if all are there. -/
def Desc.have (d : Desc) (n len : Nat) : Option (List Byte) :=
  (List.range len).foldr (fun i acc =>
    match acc, d.got.find? (fun e => e.1 = n + i) with
    | some l, some e => some (e.2 :: l)
    | _, _ => none) (some [])

/-- Does an unacknowledged write touch a 64-byte unit of these bytes (R302)? -/
def Desc.unitBusy (d : Desc) (a len : Nat) : Bool :=
  d.writes.any (fun w => w.adr / 64 ≤ (a + len - 1) / 64 && a / 64 ≤ (w.adr + w.len - 1) / 64)

/-- The write that a descriptor can issue next: address and data. -/
def Desc.nextWrite (d : Desc) (far : Bool) : Option (Nat × List Byte) :=
  if d.stopped || d.total ≤ d.wnext then none
  else
    let a := d.dstAt d.wnext
    match d.have d.wnext (d.pieceLen d.wnext far a) with
    | none => none
    | some l => if d.unitBusy a l.length then none else some (a, l)

/-- Reads and writes of the engine that are unanswered (R297). -/
def Block.dmaReads (k : Block) : Nat := k.chans.foldl (fun n e => e.2.descs.foldl (fun n d => n + d.reads.length) n) 0
def Block.dmaWrites (k : Block) : Nat := k.chans.foldl (fun n e => e.2.descs.foldl (fun n d => n + d.writes.length) n) 0

/-- Beats of 32 bytes that cover bytes a … a + n − 1. -/
def beatsOf (a n : Nat) : Nat := (a + n - 1) / 32 - a / 32 + 1

/-- A write command for a port: the bytes in their beats under a mask. -/
def portWrite (kind a : Nat) (d : List Byte) (fill : Bool) (b tag : Nat) : PortCmd :=
  let n := beatsOf a d.length
  let p := a % 32
  { kind := kind, addr := a / 32 * 32, beats := n,
    mask := (List.range (32 * n)).map (fun i => p ≤ i && i < p + d.length),
    data := List.replicate p 0 ++ d ++ List.replicate (32 * n - p - d.length) 0,
    fill := fill, sblk := b, sport := 257, tag := tag }

/-- One request of a descriptor of channel `n` under a tag: a write, or the next read. -/
def State.dmaIssue (s : State) (b n tag : Nat) (d : Desc) (w : Option (Nat × List Byte)) : State :=
  let acc : Acc := { kind := .rd, space := 0, off := 0, size := 0, sblk := b, sport := 257, tag := tag, level := d.prio,
                     sdie := s.pos.toNat, tenant := s.tenantOf b }
  let upd := fun (f : Desc → Desc) (s : State) =>
    s.modChan b n (fun c => { c with descs := c.descs.map (fun x => if x.idx = d.idx then f x else x) })
  match w with
  | some (a, l) =>
    let s := upd (fun x => { x with
      wnext := x.wnext + l.length, got := x.got.filter (fun e => x.wnext + l.length ≤ e.1),
      writes := x.writes ++ [{ tag := tag, start := x.wnext, len := l.length, adr := a }] }) s
    match s.global b a with
    | .die sp blk cob off =>
      s.send b blk { acc with kind := .wr, space := sp, cob := cob, off := off, size := l.length, data := l,
                              mask := maskN l.length, fill := d.fill }
    | .pkg p => s.sendPort b d.port d.prio (portWrite 1 p l false b tag)
    | _ => s.sendPort b d.port d.prio (portWrite 3 a l d.fill b tag)
  | none =>
    let a := d.srcAt d.rnext
    let len := d.pieceLen d.rnext (bits a 54 2 == 0) a
    let s := upd (fun x => { x with
      rnext := x.rnext + len, reads := x.reads ++ [{ tag := tag, start := x.rnext, len := len, adr := a }] }) s
    match s.global b a with
    | .die sp blk cob off => s.send b blk { acc with space := sp, cob := cob, off := off, size := len }
    | _ => s.sendPort b d.port d.prio
        { kind := 0, addr := a / 32 * 32, beats := beatsOf a len, sblk := b, sport := 257, tag := tag }

/-- Does a descriptor's next write go through a port? -/
def State.farDst (s : State) (b : Nat) (d : Desc) : Bool := s.dmaKind b true (d.dstAt d.wnext) != some 1

/-- What a descriptor can issue next, writes first. -/
def State.dmaNext (s : State) (b : Nat) (d : Desc) : Option (Option (Nat × List Byte)) :=
  let k := s.blk b
  let rd := if !d.stopped && d.rnext < d.total && k.dmaReads < 64 then some none else none
  match d.nextWrite (s.farDst b d) with
  | some w => if k.dmaWrites < 128 then some (some w) else rd
  | none => rd

/-- What a channel can issue next. -/
def State.chanNext (s : State) (b n : Nat) : Option (Desc × Option (Nat × List Byte)) :=
  ((s.blk b).chan n).descs.findSome? (fun d => (s.dmaNext b d).map (fun w => (d, w)))

/-- DMA_PIECE_REQUEST: one request of the engine, round-robin among the channels that have one ready; the engine holds while
its last request is not admitted (R297, R298, R316). -/
def execDmaPieceRequest (b : Nat) (s : State) : Res :=
  onBlk b s fun s =>
    if s.engOff b 0 || (s.blk b).dmaHeld then s
    else
      let k := s.blk b
      let order := (List.range 16).map (fun i => (k.dmaLast + 1 + i) % 16)
      match order.findSome? (fun n => if s.suspHeld false b n then none else (s.chanNext b n).map (fun x => (n, x))) with
      | none => s
      | some (n, d, w) =>
        match k.dmaTag with
        | none => s
        | some t => ((s.setBlk b { k with dmaLast := n }).engStep b 0).dmaIssue b n t d w

/-! ## Answers (R299, R540) -/

/-- Failure code of an answer (Table 11-9): its cause, else by its status. -/
def dmaCode (cause st : Nat) : Nat :=
  if cause != 0 then cause else if st = 1 then 5 else if st = 2 then 6 else if st = 3 then 7 else if st = 4 then 8 else 3

/-- The channel and descriptor that wait for a tag. -/
def Block.dmaFind (k : Block) (tag : Nat) : Option (Nat × Desc × Piece × Bool) :=
  k.chans.findSome? (fun e => e.2.descs.findSome? (fun d =>
    match d.reads.find? (fun p => p.tag = tag), d.writes.find? (fun p => p.tag = tag) with
    | some p, _ => some (e.1, d, p, true)
    | none, some p => some (e.1, d, p, false)
    | none, none => none))

/-- The head descriptor of a channel is complete: CONS advances (R303). -/
def Chan.advance (c : Chan) : Chan :=
  let descs := c.descs.drop 1
  { c with
    cons := c.cons + 1, descs := descs,
    stat := if c.stat = 1 && descs.isEmpty && c.cons + 1 = c.prod then 0 else c.stat }

/-- The answer to the completion ADD of a channel's oldest descriptor: CONS advances, or the descriptor fails (R182, R303). -/
def State.dmaSignalled (s : State) (b n : Nat) (d : Desc) (a : Ans) : State :=
  if a.status = 0 then s.modChan b n Chan.advance
  else
    let s := s.modChan b n (fun c => { c with descs := c.descs.map (fun x => if x.idx = d.idx then { x with signalled := false } else x) })
    s.dmaFail b n d (if a.status = 6 then 10 else dmaCode 0 a.status) none

/-- The answer to a piece request of a descriptor. -/
def State.dmaPiece (s : State) (b n : Nat) (d : Desc) (p : Piece) (isRead : Bool) (a : Ans) : State :=
  let s := s.modChan b n (fun c => { c with descs := c.descs.map (fun x =>
    if x.idx = d.idx then { x with reads := x.reads.erase p, writes := x.writes.erase p } else x) })
  if a.status != 0 then (if d.stopped then s else s.dmaFail b n d (dmaCode a.cause a.status) (some p.adr))
  else if isRead && !d.stopped then
    let data := if bits p.adr 54 2 = 0 then (a.data.drop (p.adr % 32)).take p.len else a.data
    s.modChan b n (fun c => { c with descs := c.descs.map (fun x =>
      if x.idx = d.idx then { x with got := x.got ++ data.mapIdx (fun i v => (p.start + i, v)) } else x) })
  else s

/-- What an answer's tag belongs to: a piece, a completion ADD, the read of a descriptor, or nothing that waits for it. -/
def State.dmaTake (s : State) (b : Nat) (a : Ans) : State :=
  let k := s.blk b
  match k.dmaFind a.tag with
  | some (n, d, p, isRead) => s.dmaPiece b n d p isRead a
  | none =>
    match k.chans.find? (fun e => e.2.descs.head?.any (fun d => d.signalled && d.sigTag == a.tag)) with
    | some (n, c) =>
      match c.descs with
      | d :: _ => s.dmaSignalled b n d a
      | [] => s
    | none =>
      match k.chans.find? (fun e => e.2.tags.contains a.tag) with
      | some (n, _) => s.modChan b n (fun c => { c with dread := c.dread.map (fun r => (r.1, r.2.1, some (a.status, a.data))) })
      | none => s.modBlk b (fun k => { k with dmaGone := k.dmaGone.erase a.tag })

/-- DMA_ANSWER: the oldest answer reaches the engine. -/
def execDmaAnswer (b : Nat) (s : State) : Res :=
  onBlk b s fun s =>
    let k := s.blk b
    match k.dmaAns with
    | [] => s
    | a :: rest => ((s.setBlk b { k with dmaAns := rest }).dmaTake b a).dmaPump b

/-- DESCRIPTOR_DRAINED: the failing descriptor and those after it have no request outstanding, those before it are
complete: the channel is FAILED and records the failure (R299). A failure without an address leaves CHn_FADDR a free value. -/
def execDescriptorDrained (b ch : Nat) (s : State) : Res :=
  onBlk b s fun s =>
    let c := (s.blk b).chan ch
    if c.stat = 3 && c.dread.all (fun r => r.2.2.isSome) && c.descs.all (fun d => d.stopped && d.reads.isEmpty && d.writes.isEmpty && !d.signalled) then
      let (adr, s) := match c.paddr with
        | some a => (a, s)
        | none => let (v, s) := s.draw; (v.toNat, s)
      let level := ((c.descs.find? (fun d => BitVec.ofNat 16 d.idx == c.pidx)).map (·.prio)).getD 0
      let s := s.modChan b ch (fun c => { c with
        stat := 2, code := c.pcode, fidx := c.pidx, faddr := BitVec.ofNat 56 adr, descs := [], dread := none })
      let s := s.logBlk b 9 [ch, c.pcode.toNat, c.pidx.toNat, adr % 2 ^ 56, c.puser.toNat]
      if c.err.getLsbD 31 then s.dmaErr b level (bits c.err.toNat 0 13) else s
    else s

/-- Has every byte of a descriptor been written and acknowledged? -/
def Desc.finished (d : Desc) : Bool :=
  !d.stopped && d.rnext == d.total && d.wnext == d.total && d.reads.isEmpty && d.writes.isEmpty

/-- DESCRIPTOR_COMPLETE: the oldest descriptor of a channel is complete: SYNCID rises by INC, then CONS advances; with
SYNCEN it advances at the ADD's answer, since an ADD that overflows fails the descriptor (R182, R303). -/
def execDescriptorComplete (b ch : Nat) (s : State) : Res :=
  onBlk b s fun s =>
    match ((s.blk b).chan ch).descs with
    | [] => s
    | d :: _ =>
      if !d.finished || d.signalled then s
      else if d.syncen then
        match (s.blk b).dmaTag with
        | none => s
        | some t =>
          (s.modChan b ch (fun c => { c with descs := c.descs.map (fun x =>
            if x.idx = d.idx then { x with signalled := true, sigTag := t } else x) })).dmaAdd b t d.prio d.syncid d.inc
      else s.modChan b ch Chan.advance

/-- DESCRIPTOR_TIMEOUT: the oldest descriptor whose TIMEOUT has passed fails (R300). -/
def execDescriptorTimeout (b ch : Nat) (s : State) : Res :=
  onBlk b s fun s =>
    match ((s.blk b).chan ch).descs.find? (fun d => !d.stopped && !d.signalled && d.start + d.timeout ≤ s.ticks) with
    | none => s
    | some d => s.dmaFail b ch d 9 none

/-! ## Register writes (R292, R293) -/

/-- Channel of a register offset, and the register's place in it. -/
def chanOf (o : Nat) : Nat := (o - 0x1600) / 32
def chanReg (o : Nat) : Nat := (o - 0x1600) % 32

/-- CHN_PROD_WRITE: posts descriptors, refused at or above ALLOC or beyond the ring. -/
def execChnProdWrite (b : Nat) (s : State) : Res :=
  onBlk b s fun s =>
    match s.popCtl b (fun a => a.kind == .wr && isChanOff a.off && chanReg a.off == 8) with
    | none => s
    | some (a, s) =>
      let n := chanOf a.off
      let c := (s.blk b).chan n
      let v := BitVec.ofNat 16 a.val
      if (s.blk b).dmaAlloc ≤ n || 2 ^ bits c.cfg.toNat 28 4 < (v - c.cons).toNat then s.reply b a 6 []
      else (s.modChan b n (fun c => { c with prod := v })).reply b a 0 []

/-- A CHn_CTL write that satisfies a test, in FAILED (Table 11-8). -/
def chanCtl (b : Nat) (p : Nat → Bool) (f : Chan → Chan) (s : State) : Res :=
  onBlk b s fun s =>
    match s.popCtl b (fun a => a.kind == .wr && isChanOff a.off && chanReg a.off == 20 && p a.val) with
    | none => s
    | some (a, s) =>
      let n := chanOf a.off
      if (s.blk b).dmaAlloc ≤ n then s.reply b a 6 []
      else
        (s.modChan b n (fun c => if c.stat = 2 then { f c with stat := 0 } else c)).reply b a 0 []

/-- CLR: skips the failed descriptor and resumes. -/
def execClr (b : Nat) (s : State) : Res :=
  chanCtl b (fun v => bit v 0 && !bit v 1) (fun c => { c with cons := c.fidx + 1 }) s

/-- ABORT: discards every posted descriptor. -/
def execAbort (b : Nat) (s : State) : Res := chanCtl b (fun v => bit v 1) (fun c => { c with cons := c.prod }) s

end Sys2Proof.Machine
end

