-- ==== Sys2Proof/Machine/Stream.lean ====
section
/-!
DEFINITION. The stream engines of the edge blocks and the beats of stream ports: commands, answers, relay, windows,
protection and replay (R286 to R291, R329 to R337, R354, R355, R539, R540; Table 11-6).
-/

namespace Sys2Proof.Machine

/-! ## Beats -/

/-- A beat's 32 bytes, and back. -/
def beatOf (d : List Byte) : BitVec 256 := BitVec.ofNat 256 (ofBytes (d.take 32))
def beatBytes (x : BitVec 256) : List Byte := toBytes 32 x.toNat

/-- Data beats of a byte list. -/
def beatsFrom : Nat → List Byte → List (BitVec 256)
  | 0, _ => []
  | n + 1, d => beatOf d :: beatsFrom n (d.drop 32)

/-- A mask's 32 bits for beat i. -/
def beatMask (m : List Bool) (i : Nat) : Nat :=
  (List.range 32).foldl (fun acc j => acc + boolNat (m.getD (32 * i + j) false) * 2 ^ j) 0

/-- The beats of a command under a tag (Table 11-6): kinds 0 RD, 1 WR, 2 WRM, 3 RLY. -/
def PortCmd.toBeats (c : PortCmd) (tag : Nat) : List (BitVec 256) :=
  let head := (c.kind + 1) * 2 ^ 252 + tag * 2 ^ 244 + (c.beats - 1) * 2 ^ 241
  let ends := beatMask c.mask 0 * 2 ^ 192 + beatMask c.mask (c.beats - 1) * 2 ^ 160
  let data := beatsFrom c.beats c.data
  match c.kind with
  | 0 => [BitVec.ofNat 256 (head + c.addr)]
  | 1 => BitVec.ofNat 256 (head + ends + c.addr) :: data
  | 2 => BitVec.ofNat 256 (head + c.addr) ::
      BitVec.ofNat 256 ((List.range c.beats).foldl (fun acc i => acc + beatMask c.mask i * 2 ^ (32 * i)) 0) :: data
  | _ => BitVec.ofNat 256 (head + boolNat c.fill * 2 ^ 240 + ends + c.addr) :: data

def bType (x : BitVec 256) : Nat := bits x.toNat 252 4
def bTag (x : BitVec 256) : Nat := bits x.toNat 244 8
def bLen (x : BitVec 256) : Nat := bits x.toNat 241 3 + 1
def bStatus (x : BitVec 256) : Nat := bits x.toNat 236 4

/-! ## Commands out (R287, R290) -/

/-- An answer of a stream port to a command's requester, at the request's level (R311): its STATUS of Table 13-2 and the code
of Table 11-9 that it stands for. -/
def State.portReply (s : State) (p : Nat) (c : PortCmd) (st : Nat × Nat) (data : List Byte) : State :=
  let b := spBlk p
  let a : Ans := { sport := c.sport, tag := c.tag, status := st.1, cause := st.2, data := data }
  if c.sblk = b then s.deliver b a
  else s.ni b { cls := 1, level := c.level, nfl := ansFlits data.length, dst := c.sblk, src := b, sport := 258,
                pay := .ans a }

/-- Answers of a stream engine: fenced; a poisoned value; LINK; TIMEOUT. -/
def ansFenced : Nat × Nat := (1, 0)
def ansPoison : Nat × Nat := (4, 0)
def ansLink : Nat × Nat := (6, 12)
def ansTimeout : Nat × Nat := (6, 9)

/-- The request that the stream engine admits next for a port: round-robin among the requesting blocks (R287). -/
def State.nextCmd (s : State) (p : Nat) : Option PortCmd :=
  let cs := ((s.blk (spBlk p)).portIn.filter (fun e => e.1 = p)).map (·.2)
  let last := (s.port p).lastBlk
  let dist := fun (c : PortCmd) => (c.sblk + 319 - last) % 320
  cs.foldl (fun m c =>
    match m with
    | none => some c
    | some x => if dist c < dist x then some c else m) none

/-- A tag that no command of the port holds, nor an abandoned one (R445). -/
def Port.freeTag (q : Port) : Option Nat :=
  (List.range 256).find? (fun t => !q.tags.any (fun e => e.1 == t) && !q.gone.contains t)

/-- The stream engine sends a command of kind `kind` for port `p`: poisoned write data is refused as a poisoned value, a
port that is not UP answers LINK (R289); with every tag in use the request is held (R287). -/
def strmCmd (kind p : Nat) (s : State) : Res :=
  onSp p s fun s =>
    let b := spBlk p
    match s.nextCmd p with
    | none => s
    | some c =>
      if c.kind != kind || s.engOff b 1 then s
      else
        let take := fun (s : State) => (s.modBlk b (fun k => { k with portIn := k.portIn.erase (p, c) })).modPort p
          (fun q => { q with lastBlk := c.sblk })
        let q := s.port p
        if q.st != 2 then (take s).portReply p c ansLink []
        else if c.poison then (take s).portReply p c ansPoison []
        else match q.freeTag with
          | none => s
          | some t => ((take s).engStep b 1).modPort p (fun q => { q with tags := lset q.tags t c, outq := q.outq ++ c.toBeats t })

def execRd (sp : Nat) (s : State) : Res := strmCmd 0 sp s
def execWr (sp : Nat) (s : State) : Res := strmCmd 1 sp s
def execWrm (sp : Nat) (s : State) : Res := strmCmd 2 sp s
def execRly (sp : Nat) (s : State) : Res := strmCmd 3 sp s

/-! ## Answers in (R540) -/

/-- An answer's STATUS as its requester gets it (R540): success; an address beyond memory is refused as MEM_ADDR; a refusal at
the far die of an RLY is a window violation; every other value is an uncorrectable memory error: poisoned data. -/
def strmStatus (kind st : Nat) : Nat × Nat :=
  if st = 0 then (0, 0) else if st = 1 then (6, 11) else if st = 3 && kind = 3 then (2, 6) else (4, 8)

/-- An answer with a tag: it frees the tag and goes to the requester; an abandoned tag's answer is discarded (R445). -/
def State.strmAnswer (s : State) (p tag st : Nat) (data : List Byte) : State :=
  let s := s.engStep (spBlk p) 1
  let q := s.port p
  match q.tags.find? (fun e => e.1 = tag) with
  | none => s.setPort p { q with gone := q.gone.erase tag }
  | some (_, c) =>
    (s.setPort p { q with tags := q.tags.filter (fun e => e.1 != tag) }).portReply p c (strmStatus c.kind st) data

/-- RSP: the oldest received beats are an RSP with its data. A beat of no known TYPE at the head is dropped. -/
def execRsp (sp : Nat) (s : State) : Res :=
  onSp sp s fun s =>
    let q := s.port sp
    match q.rx with
    | [] => s
    | h :: rest =>
      let n := if bStatus h = 0 then bLen h else 0
      if bType h = 8 then
        if rest.length < n then s
        else (s.setPort sp { q with rx := rest.drop n }).strmAnswer sp (bTag h) (bStatus h) ((rest.take n).flatMap beatBytes)
      else if bType h = 9 || bType h = 4 then s
      else s.setPort sp { q with rx := rest }

/-- ACK: the oldest received beat is an ACK. -/
def execAck (sp : Nat) (s : State) : Res :=
  onSp sp s fun s =>
    let q := s.port sp
    match q.rx with
    | [] => s
    | h :: rest =>
      if bType h = 9 then (s.setPort sp { q with rx := rest }).strmAnswer sp (bTag h) (bStatus h) [] else s

/-- The binding that names a port, if it is VALID. -/
def State.bindOf (s : State) (p : Nat) : Option W32 :=
  ((List.range 160).map s.sbind).find? (fun r => sbValid r && sbPort r == p)

/-- The bytes that an RLY writes: its masks over the beats (R540). -/
def rlyMask (n first last : Nat) : Nat :=
  if n = 1 then first &&& last
  else first + maskN (32 * (n - 2)) * 2 ^ 32 + last * 2 ^ (32 * (n - 1))

/-- Place of the lowest set bit, and number of bits up to the highest. -/
def lowBit (m : Nat) : Nat := ((List.range 256).find? (fun i => bit m i)).getD 0
def highBit (m : Nat) : Nat := (List.range 256).foldl (fun h i => if bit m i then i else h) 0

/-- Tags in use by the stream engine's relay writes, abandoned ones among them. -/
def Block.rlyUsed (k : Block) : List Nat := k.rlyTags.map (·.1) ++ (k.gone.filter (fun e => e.1 = 258)).map (·.2)

/-- INBOUND_RLY: the oldest received beats are an RLY with its data: remote writes of class REMOTE into the own partition,
answered ACK when they are accepted; without a valid RELAY binding STATUS 3 and a log record (R291). With each of its 256 tags in
use, or its last request not admitted, the engine holds the beats (R310, R316). -/
def execInboundRly (sp : Nat) (s : State) : Res :=
  onSp sp s fun s =>
    let q := s.port sp
    match q.rx with
    | [] => s
    | h :: rest =>
      let n := bLen h
      if bType h != 4 || rest.length < n || 256 ≤ (s.blk (spBlk sp)).rlyUsed.length ||
          (s.blk (spBlk sp)).niq.any (fun p => p.sport == 258 && p.cls != 1) then s
      else
        let s := s.setPort sp { q with rx := rest.drop n }
        let ack := fun (st : Nat) (s : State) => s.modPort sp (fun q => { q with outq := q.outq ++ [ackBeat (bTag h) st] })
        let b := spBlk sp
        match s.bindOf sp with
        | none => ack 3 (s.logEvent 3 sp 0x24 (s.partOfBlk b) [1])
        | some r =>
          if sbKind r != 1 then ack 3 (s.logEvent 3 sp 0x24 (s.partOfBlk b) [1])
          else
            let g := bits h.toNat 0 56
            let m := rlyMask n (bits h.toNat 192 32) (bits h.toNat 160 32)
            if m = 0 then ack 0 s
            else
              let lo := lowBit m
              let len := highBit m - lo + 1
              match s.global b (g + lo), s.global b (g + lo + len - 1) with
              | .die spc blk cob off, .die _ blk' _ _ =>
                if 2 ≤ spc || blk != blk' then ack 3 s
                else
                  let t := freshTag (s.blk b).rlyUsed 256 256 0
                  let s := s.modBlk b (fun k => { k with rlyTags := lset k.rlyTags t (sp, bTag h) })
                  let a : Acc := {
                    kind := .wr, space := spc, cob := cob, off := off, size := len,
                    data := (((rest.take n).flatMap beatBytes).drop lo).take len, mask := m / 2 ^ lo,
                    fill := sbInfe r || h.getLsbD 240, sblk := b, sport := 258, tag := t,
                    level := (s.blk b).strmLevel, sclass := 2, sdie := sbFar r, tenant := s.tenantOf b, remote := true }
                  s.ni b { cls := 0, level := a.level, nfl := reqFlits a, dst := blk, src := b, sport := 258, pay := .acc a }
              | _, _ => ack 3 s

/-! ## Protection (R333, R334) -/

/-- CRC-8 of the low `n` bits of a number, the highest first: x^8 + x^2 + x + 1 (R333). -/
def crc8 (x : Nat) : Nat → Nat → Nat
  | 0, r => r
  | n + 1, r =>
    let f := (r / 128 + boolNat (bit x n)) % 2
    crc8 x n (Nat.xor (r * 2 % 256) (if f = 1 then 7 else 0))

/-- Parity of group g of the data. -/
def grpParity (d : BitVec 256) (g : Nat) : Bool :=
  (List.range 32).foldl (fun p i => xor p (d.getLsbD (32 * g + i))) false

/-- Has group g's spare the replacement role? Which wire it replaces. -/
def Port.used (q : Port) (g : Nat) : Bool := (lget 0 q.spares g).getLsbD 7
def Port.wire (q : Port) (g : Nat) : Nat := bits (lget 0 q.spares g).toNat 0 5

/-- Group whose spare mirrors a wire at a beat count (R354). -/
def mirGroup (n : Nat) : Nat := n / 65536 % 8

/-- Wire groups in use. -/
def Port.groups (q : Port) : Nat := if q.w128 then 4 else 8

/-- The spares of the outbound bundle, which the partner's receiver chose (R334, R348). -/
def Port.usedO (q : Port) (g : Nat) : Bool := (lget 0 q.sparesO g).getLsbD 7
def Port.wireO (q : Port) (g : Nat) : Nat := bits (lget 0 q.sparesO g).toNat 0 5

/-- Groups of a spare-mode port that carry parity at a beat count: not in the replacement role, not mirroring. -/
def Port.parGroups (q : Port) (n : Nat) : List Nat :=
  (List.range q.groups).filter (fun g => !q.used g && g != mirGroup n)

/-- The data wires of a transfer: the whole beat, or one half on D[127:0] (R352). -/
def Sent.wires (b : Sent) : BitVec 256 :=
  if b.half = 0 then b.data else if b.half = 1 then (b.data.setWidth 128).setWidth 256 else b.data >>> 128

/-- Check bits of a transfer: the CRC of its data wires, of which a half keeps the low four bits (R333, R352). -/
def checkBits (half : Bool) (d : BitVec 256) (mark : Bool) : BitVec 8 :=
  let m := boolNat mark
  if half then BitVec.ofNat 8 (Nat.xor (crc8 (d.toNat % 2 ^ 128) 128 0 % 16) (m * 15))
  else BitVec.ofNat 8 (Nat.xor (crc8 d.toNat 256 0) (m * 255))

/-- The extra wires of an outbound transfer, with or without the resume mark. -/
def Port.extra (q : Port) (b : Sent) : BitVec 8 :=
  if q.chk then checkBits (b.half != 0) b.wires b.mark
  else
    BitVec.ofNat 8 ((List.range q.groups).foldl (fun acc g =>
      acc + boolNat (
        if q.usedO g then b.wires.getLsbD (32 * g + q.wireO g)
        else if g = mirGroup b.n then b.wires.getLsbD (32 * g + b.n / 524288 % 32)
        else xor (grpParity b.wires g) b.mark) * 2 ^ g) 0)

/-- A received beat with its spares demultiplexed. -/
def Port.demux (q : Port) (d : BitVec 256) (x : BitVec 8) : BitVec 256 :=
  if q.chk then d
  else (List.range q.groups).foldl (fun d g =>
    if q.used g then
      let m := (1#256) <<< (32 * g + q.wire g)
      if x.getLsbD g then d ||| m else d &&& ~~~m
    else d) d

/-- The check of a received beat: 0 passes, 1 passes with the resume mark, 2 fails. -/
def Port.check (q : Port) (d : BitVec 256) (x : BitVec 8) : Nat :=
  if q.chk then
    let y := if q.w128 then x &&& 15 else x
    if y = checkBits q.w128 d false then 0 else if y = checkBits q.w128 d true then 1 else 2
  else
    let gs := q.parGroups q.rxN
    let bad := gs.filter (fun g => grpParity d g != x.getLsbD g)
    if bad = [] then 0 else if bad.length = gs.length then 1 else 2

/-! ## Retirement (R289, R358, Table 14-9) -/

/-- Ports in service. -/
def State.portUp (s : State) (p : Nat) : Bool := (s.port p).st == 2

/-- Source kind and number of a port in the log. -/
def State.logPort (s : State) (p event : Nat) (data : List Nat) : State :=
  if p < 160 then s.logEvent 3 p event (s.isl (p / 16)).part data
  else s.logEvent 4 (p - 160) event (if p < 170 then (s.isl (p - 160)).part else 0xFF) data

/-! ## Accesses of an NTE slice (R310, R368) -/

def State.nte (s : State) (i : Nat) : Nte := (s.isl i).nte
def State.modNte (s : State) (i : Nat) (f : Nte → Nte) : State := s.modIsl i (fun k => { k with nte := f k.nte })
def State.qp (s : State) (i q : Nat) : Qp := lget ({} : Qp) (s.nte i).qps q
def State.setQp (s : State) (i q : Nat) (k : Qp) : State := s.modNte i (fun n => { n with qps := lset n.qps q k })
def State.modQp (s : State) (i q : Nat) (f : Qp → Qp) : State := s.setQp i q (f (s.qp i q))

/-- Tags in use by a slice: accesses in flight, abandoned ones. -/
def State.nteUsed (s : State) (i : Nat) : List Nat :=
  (s.nte i).accs.filterMap (·.wire) ++ ((s.blk (ppBlk i)).gone.filter (fun e => e.1 = 261)).map (·.2)

/-- An access leaves for its block under a tag, at the slice's level. -/
def State.nteSend (s : State) (i dst tag : Nat) (a : Acc) : State :=
  let b := ppBlk i
  s.ni b { cls := accClass a, level := a.level, nfl := reqFlits a, dst := dst, src := b, sport := 261,
           pay := .acc { a with tag := tag } }

/-- The oldest access without a tag leaves once one of the 256 is free (R310). -/
def State.ntePump (s : State) (i : Nat) : State :=
  match (s.nte i).accs.find? (·.wire.isNone) with
  | none => s
  | some a =>
    if 256 ≤ (s.nteUsed i).length then s
    else
      let t := freshTag (s.nteUsed i) 256 256 0
      ((s.modNte i (fun n => { n with accs := n.accs.replace a { a with wire := some t } })).engStep (ppBlk i) 3).nteSend i a.dst t a.acc

/-- A new access of the slice: kind, space, offset, bytes, class. -/
def State.nteAcc (s : State) (i q : Nat) (use : NteUse) (psn pos mr dst space off cls : Nat) (kind : AccKind) (size : Nat)
    (data : List Byte) : State :=
  let b := ppBlk i
  let n := freshTag ((s.nte i).accs.map (·.tag)) 65536 (s.nte i).accs.length 0
  let a : Acc := { kind := kind, space := space, off := off, size := size, data := data, mask := maskN data.length, sblk := b,
                   sport := 261, level := (s.blk b).nteLevel, sclass := cls, sdie := s.pos.toNat,
                   tenant := s.tenantOf b, remote := true }
  (s.modNte i (fun m => { m with accs := m.accs ++
    [{ tag := n, qp := q, use := use, psn := psn, pos := pos, mr := mr, dst := dst, acc := a }] })).ntePump i

/-- Is it a NAK? -/
def Resp.isNak : Resp → Bool
  | .nak _ _ => true
  | _ => false

/-- A queue pair enters ERROR with a code (R377): ERRSYNC, a log record, then it stops; a NAK that is due still leaves. -/
def State.qpFail (s : State) (i q code fidx : Nat) (user : BitVec 64) : State :=
  let n := (s.isl i).nte
  let k := lget ({} : Qp) n.qps q
  if k.stat != 1 then s
  else
    let k' := { k with stat := 2, code := BitVec.ofNat 8 code, fidx := BitVec.ofNat 16 fidx, timer := none, rnrAt := none,
                       works := [], recvs := [], wqe := none, wqeRd := false, rqe := none, rqeRd := false, buf := none,
                       inSend := false, inWrite := none, cnpDue := false,
                       out := if code = 14 then [] else k.out.filter Resp.isNak }
    let s := s.modIsl i (fun isl => { isl with nte := { isl.nte with
      qps := lset isl.nte.qps q k',
      accs := isl.nte.accs.map (fun a => if a.qp = q && a.use != .place && a.use != .recv then { a with use := .orphan } else a) } })
    let s := s.logEvent 1 i 0xA (s.isl i).part [q, code, fidx, user.toNat]
    let id := bits k.err.toNat 0 13
    if k.err.getLsbD 31 then s.nteAcc i q .orphan 0 0 128 (id / 16) 2 (id % 16 * 16 + 4) 0 .wr 4 (toBytes 4 1) else s

/-- A retired stream port's effects: its binding is RETIRED and its commands fail with LINK. -/
def State.retireStream (s : State) (p : Nat) : State :=
  let s := (List.range 160).foldl (fun s n =>
    let r := s.sbind n
    if sbValid r && sbPort r == p then
      s.modIsl (n / 16) (fun i => { i with sbind := lset i.sbind (n % 16) ((r &&& 0x7FFFFFFF#32) ||| 0x08000000#32) })
    else s) s
  let cs := (s.port p).tags.map (·.2) ++ ((s.blk (spBlk p)).portIn.filter (fun e => e.1 = p)).map (·.2)
  let s := s.modBlk (spBlk p) (fun k => { k with portIn := k.portIn.filter (fun e => e.1 != p) })
  cs.foldl (fun s c => s.portReply p c ansLink []) s

/-- A port retires with a cause: it raises LINK_RETIRED, stops, holds its wires, drops its beats or frames (R358). Log
records that it had not delivered are due again (R493). -/
def State.portRetire (s : State) (p cause : Nat) : State :=
  let q := s.port p
  let s := s.logPort p 0x20 [p, cause, q.crcerr.toNat, q.replay.toNat]
  let s := s.setPort p { q with
    st := 4, cause := cause, outq := [], unans := [], resend := [], dropAns := 0, outHalf := none, rxHalf := none, rep := none, part3 := false, rx := [], vcq := [], unacked := [], asm := [],
    refr := [], bells := [], dropMsg := [], inbox := [] }
  let s := if p < 160 then (s.retireStream p).modPort p (fun x => { x with tags := [] })
    else if p < 170 then
      ((s.isl (p - 160)).nte.qps.map (·.1)).foldl (fun s n => s.qpFail (p - 160) n 14
        ((lget ({} : Qp) (s.isl (p - 160)).nte.qps n).sqcons.toNat) 0) s
    else s
  let s := if 170 ≤ p then s.modAon (fun a => { a with log := a.log.map (fun r => { r with sent := r.copied }) }) else s
  if 170 ≤ p && (s.port 170).st ≠ 2 && (s.port 171).st ≠ 2 && s.aon.unreach.isNone then
    s.modAon (fun a => { a with unreach := some (s.ticks, s.pktime) })
  else s

/-- One more replay: LREPLAY rises, and the rate limit of R337 holds. -/
def State.countReplay (s : State) (p : Nat) : State :=
  let q := s.port p
  let s := (s.setPort p { q with replay := satInc q.replay, rate := q.rate + 1 }).satLog (if p < 160 then 3 else 4)
    (if p < 160 then p else p - 160) 4 q.replay (satInc q.replay)
  if (q.lretry.toNat / 2 ^ 16) < q.rate + 1 then s.portRetire p 11 else s

/-- A consecutive failure: the count against LRETRY.LIM. -/
def State.countFail (s : State) (p : Nat) : State :=
  let q := s.port p
  let s := s.setPort p { q with consec := q.consec + 1 }
  if q.lretry.toNat % 16 < q.consec + 1 then s.portRetire p 10 else s

/-- A rejected beat or flit. -/
def State.countCrc (s : State) (p : Nat) : State :=
  let q := s.port p
  (s.setPort p { q with crcerr := satInc q.crcerr }).satLog (if p < 160 then 3 else 4) (if p < 160 then p else p - 160) 3
    q.crcerr (satInc q.crcerr)

/-! ## Beats out and in (R330, R331, R335, R336) -/

/-- A beat leaves on the wires: one REQ transition (R329). At width 128 that is one of its two transfers, and the wires of
groups 4 to 7 stay idle, at 0 (R352). -/
def Port.drive (q : Port) (b : Sent) : Port :=
  { q with dOut := b.wires, xOut := q.extra b, reqO := !q.reqO, unans := q.unans ++ [b] }

/-- The next transfer that leaves: a replayed one, the high half of a beat begun, or the next beat. -/
def Port.nextSent (q : Port) : Option (Sent × Port) :=
  match q.resend, q.outHalf, q.outq with
  | b :: rest, _, _ => some (b, { q with resend := rest })
  | [], some b, _ => some (b, { q with outHalf := none })
  | [], none, [] => none
  | [], none, d :: rest =>
    if q.w128 then
      some ({ data := d, n := q.txN, half := 1 },
        { q with outq := rest, txN := q.txN + 2, outHalf := some { data := d, n := q.txN + 1, half := 2 } })
    else some ({ data := d, n := q.txN }, { q with outq := rest, txN := q.txN + 1 })

/-- OUTBOUND_BEAT: the next beat, a replayed one first, within the window W. -/
def execOutboundBeat (sp : Nat) (s : State) : Res :=
  onSp sp s fun s =>
    let q := s.port sp
    if q.st != 2 || q.win ≤ q.unans.length + q.dropAns then s
    else match q.nextSent with
      | some (b, r) => (s.see (sp / 16) 5).setPort sp (r.drive b)
      | none => s

/-- BEAT_ANSWER: an ACK for the oldest unanswered beat. -/
def execBeatAnswer (sp : Nat) (s : State) : Res :=
  onSp sp s fun s =>
    let q := s.port sp
    if q.dropAns != 0 then s.setPort sp { q with dropAns := q.dropAns - 1 }
    else match q.unans with
      | [] => s
      | b :: rest => s.setPort sp { q with unans := rest, consec := if b.again then 0 else q.consec }

/-- BEAT_NAK: a NAK for the oldest unanswered beat starts a replay, at width 128 from the low half of its beat; `probe`: a probe of the partner caused it, and it counts
toward neither limit (R337). -/
def execBeatNak (sp : Nat) (probe : Bool) (s : State) : Res :=
  onSp sp s fun s =>
    let q := s.port sp
    if q.dropAns != 0 then s.setPort sp { q with dropAns := q.dropAns - 1 }
    else match q.unans with
      | [] => s
      | b :: rest =>
        let again := fun (m : Bool) (x : Sent) => { x with mark := m, again := true }
        let first := if b.half = 2 then [again true { b with half := 1, n := b.n - 1 }, again false b] else [again true b]
        let s := s.setPort sp { q with
          unans := [], dropAns := rest.length, resend := first ++ rest.map (again false) ++ q.resend }
        if probe then s.modPort sp (fun q => { q with replay := satInc q.replay })
        else
          let s := if b.again then s.countFail sp else s
          if (s.port sp).st = 2 then s.countReplay sp else s

/-- REPLAY_RATE_WINDOW: a window of 2^24 steps ends. -/
def execReplayRateWindow (pt : Nat) (s : State) : Res :=
  onPort pt s fun s =>
    let q := s.port pt
    if q.lretry.toNat / 2 ^ 16 < q.rate && q.st = 2 then (s.portRetire pt 11).modPort pt (fun q => { q with rate := 0 })
    else s.setPort pt { q with rate := 0 }

/-- The receiver's answer to a beat: accepted into a receive slot, or NAK and DISCARD. At width 128 two transfers make a beat;
the replay of one that is rejected begins with its beat's low half (R352). -/
def State.rxBeat (s : State) (p : Nat) (d : BitVec 256) (res : Nat) (probe : Bool) : State :=
  let q := s.port p
  if (if q.disc then res == 1 else res == 0) then
    let q := { q with disc := false, ackO := !q.ackO, rxN := q.rxN + 1 }
    s.setPort p (if !q.w128 then { q with rx := q.rx ++ [d] }
      else match q.rxHalf with
        | none => { q with rxHalf := some (d.setWidth 128) }
        | some l => { q with rxHalf := none, rx := q.rx ++ [d.setWidth 128 ++ l] })
  else
    let s := s.setPort p { q with disc := true, nakO := !q.nakO, rxHalf := none, rxN := q.rxN - boolNat q.rxHalf.isSome }
    if probe then s else s.countCrc p

/-- INBOUND_BEAT: a received beat is checked and answered; with every receive slot full its answer waits. -/
def execInboundBeat (sp : Nat) (d : BitVec 256) (x : BitVec 8) (s : State) : Res :=
  onSp sp s fun s =>
    let q := s.port sp
    if q.st != 2 || 32 ≤ q.rx.length then s
    else
      let d := q.demux d x
      s.rxBeat sp d (q.check d x) false

/-- The trial code of the next probe (R355): outward from the working code, alternating between the edges. -/
def Port.trial (q : Port) : Nat × Bool :=
  let up := if q.prHi.isSome then false else if q.prLo.isSome then true else q.prStep % 2 == 0
  let k := if q.prHi.isSome || q.prLo.isSome then q.prStep else q.prStep / 2
  (if up then min 63 (q.code + k + 1) else q.code - (k + 1), up)

/-- QUIET_WINDOW_PROBE: after 64 quiet steps a check-mode stream port samples the next beat at a trial code; `d` and `x` are
what that code samples. A failing sample marks the edge and is NAKed, counting nowhere. -/
def execQuietWindowProbe (sp : Nat) (d : BitVec 256) (x : BitVec 8) (s : State) : Res :=
  onSp sp s fun s =>
    let q := s.port sp
    if q.st != 2 || !q.chk || 32 ≤ q.rx.length || (q.prLo.isSome && q.prHi.isSome) then s
    else
      let (c, up) := q.trial
      let res := q.check d x
      let bad := !(if q.disc then res == 1 else res == 0)
      let edge : Bool := bad || c = 0 || c = 63
      let at_ := if bad then (if up then c - 1 else c + 1) else c
      let q := { q with
        prHi := if up && edge then some at_ else q.prHi, prLo := if !up && edge then some at_ else q.prLo,
        prStep := q.prStep + 1 }
      (s.setPort sp q).rxBeat sp d res true

end Sys2Proof.Machine
end

