-- ==== Sys2Proof/Machine/Msg.lean ====
section
/-!
DEFINITION. Messages of the packet ports: queues by virtual channel, command items, replies and the items in progress
(R339, R381 to R391; Tables 16-1 and 16-2).
-/

namespace Sys2Proof.Machine

/-- Port number of packet port `p`. -/
def ppPort (p : Nat) : Nat := 160 + p

/-- Bytes padded with zeros to whole flits. -/
def padFlits (d : List Byte) : List Byte := d ++ List.replicate ((32 - d.length % 32) % 32) 0

/-- A message joins a virtual channel's queue of packet port `p`. -/
def State.sendMsg (s : State) (p vc : Nat) (d : List Byte) : State :=
  s.modPort (ppPort p) (fun q => { q with vcq := lset q.vcq vc (lget [] q.vcq vc ++ [padFlits d]) })

/-- Is packet port `p` in service? -/
def State.ppUp (s : State) (p : Nat) : Bool := s.portUp (ppPort p)

/-- The lower-numbered in-service management port (R384). -/
def State.mgmtPort (s : State) : Option Nat := if s.ppUp 10 then some 10 else if s.ppUp 11 then some 11 else none

/-- An exchange with the package's memories: its message leaves on virtual channel 3 of a management port in service (R1, R396,
R402, R423, R436, R490). What a read returns is an operand of the command that reads (notes/assumptions/36.md, 72.md). -/
def State.hub (s : State) (kind a : Nat) (d : List Byte) : State :=
  match s.mgmtPort with
  | some p => s.sendMsg p 3 (Config.hubMsg kind a d)
  | none => s

/-- Field of `n` bytes at an offset of an item or message. -/
def fld (d : List Byte) (o n : Nat) : Nat := ofBytes ((d.drop o).take n)

def Item.fld (i : Item) (o n : Nat) : Nat := Machine.fld i.bytes o n
def Item.op (i : Item) : Nat := i.fld 0 1
def Item.ord (i : Item) : Bool := bit (i.fld 2 1) 0
def Item.prio (i : Item) : Nat := i.fld 3 1 % 4
def Item.tag (i : Item) : Nat := i.fld 6 2
def Item.part (i : Item) : Nat := i.fld 8 1
def Item.cls (i : Item) : Nat := i.fld 10 2 / 4096
def Item.reqIdx (i : Item) : Nat := i.fld 10 2 % 4096
def Item.timeout (i : Item) : Nat := i.fld 16 4

/-- Status codes (Table 00-8). -/
def stOk : Nat := 0
def stBusy : Nat := 1
def stBadOpcode : Nat := 2
def stBadParam : Nat := 3
def stBadImage : Nat := 4
def stNoBucket : Nat := 5
def stNoResource : Nat := 6
def stLocked : Nat := 7
def stDenied : Nat := 8
def stTimeout : Nat := 9
def stFlushed : Nat := 10
def stFenced : Nat := 11
def stDeferred : Nat := 12
def stIdClash : Nat := 13

/-- What a command answers: status, reason, DETAIL, reply data. -/
structure Reply where
  status : Nat := 0
  reason : Nat := 0
  detail : Nat := 0
  data : List Byte := []
deriving DecidableEq, Repr

/-- A reply message (Table 16-2). -/
def replyBytes (op tag part : Nat) (time : BitVec 64) (r : Reply) : List Byte :=
  let body := padFlits r.data
  toBytes 1 op ++ toBytes 1 r.status ++ toBytes 1 r.reason ++ [0] ++ toBytes 2 (32 + body.length) ++ toBytes 2 tag
    ++ toBytes 1 part ++ List.replicate 7 0 ++ toBytes 8 time.toNat ++ toBytes 8 r.detail ++ body

/-- The reply to an item goes out on its port, or on the lower in-service management port (R384). -/
def State.sendReply (s : State) (port : Nat) (b : List Byte) : State :=
  if (s.port (ppPort port)).st != 4 then s.sendMsg port 0 b
  else match s.mgmtPort with
    | some p => s.sendMsg p 0 b
    | none => s

def State.answer (s : State) (i : Item) (r : Reply) : State :=
  if i.answered then s else s.sendReply i.port (replyBytes i.op i.tag i.part s.pktime r)

/-- Queue `q`: 0 to 9 the partitions', 10 the management queue (R386). -/
def State.queue (s : State) (q : Nat) : List Item := lget [] s.queues q
def State.setQueue (s : State) (q : Nat) (l : List Item) : State := { s with queues := cset [] s.queues q l }

/-- The item in progress of a queue. -/
def State.inProg (s : State) (q : Nat) : Option Item := (s.queue q).find? (·.started)

/-- An item leaves its queue with its reply. -/
def State.finish (s : State) (q : Nat) (i : Item) (r : Reply) : State :=
  (s.setQueue q ((s.queue q).filter (fun x => x.seq != i.seq))).answer i r

/-- Does firmware run (R406, R437, R442)? -/
def State.fwUp (s : State) : Bool := s.aon.fw == 1

/-- The command of queue `q` with opcode `op` is in progress and firmware runs: its effect and its reply. -/
def fwCmd (op q : Nat) (s : State) (f : Item → State → Reply × State) : Res :=
  if 11 ≤ q then .fault (.noSuchUnit "queue" q)
  else match s.inProg q with
    | none => .next s
    | some i =>
      if i.op != op || !s.fwUp then .next s
      else
        let (r, s) := f i s
        .next (s.finish q i r)

/-- A command whose reply may come later: none while it goes on. -/
def fwCmdWait (op q : Nat) (s : State) (f : Item → State → Option Reply × State) : Res :=
  if 11 ≤ q then .fault (.noSuchUnit "queue" q)
  else match s.inProg q with
    | none => .next s
    | some i =>
      if i.op != op || !s.fwUp then .next s
      else match f i s with
        | (some r, s) => .next (s.finish q i r)
        | (none, s) => .next s

def okR (s : State) : Reply × State := ({}, s)
def failR (st : Nat) (s : State) : Reply × State := ({ status := st }, s)
def dataR (d : List Byte) (s : State) : Reply × State := ({ data := d }, s)

/-- A LINK_TRAIN in progress for port `p` is answered (R346, R392). -/
def State.linkDone (s : State) (p st : Nat) : State :=
  match s.inProg 10 with
  | none => s
  | some i => if i.op = 0x46 && i.fld 32 1 = p then s.finish 10 i { status := st } else s

/-- A record for the log from the always-on island. -/
def State.logAon (s : State) (event : Nat) (data : List Nat) (part : Nat := 0xFF) : State := s.logEvent 0 0 event part data

/-- A fuse field's value, 0 where it is not programmed (Table 18-2, R508). -/
def State.fuse (s : State) (field idx : Nat) : Nat := (lget none (s.fuses.map (fun e => (e.1, some e.2))) (field * 65536 + idx)).getD 0

/-- Link identity (R357). -/
def State.linkId (s : State) : Nat := s.fuse 6 0 % 65536

end Sys2Proof.Machine
end

