-- ==== Sys2Proof/Machine/Link.lean ====
section
/-!
DEFINITION. Training, negotiation, delay codes and retirement of the die-link ports (R344 to R359; Tables 14-6 to 14-8).
Port numbers: 0 to 159 stream ports, 160 to 169 island packet ports, 170 and 171 management ports.
-/

namespace Sys2Proof.Machine

/-! ## Phases (Table 14-6): 0 PRESENCE, 1 ROLE, 2 CAP, 3 SWEEP, 4 VERIFY, 5 DONE -/

/-- Timeout of a phase in ticks. -/
def phaseLimit (ph : Nat) : Nat := if ph = 0 then 50000000 else if ph = 3 then 1500000 else 100000

/-- A port enters a phase; a leader's next status beat marks the change (R345). -/
def State.enterPhase (s : State) (p ph : Nat) : State :=
  s.modPort p (fun q => { q with
    ph := ph, phTick := s.ticks, mine := false, theirs := false, cnt := 0, tsent := 0, tn := 0, tgap := 0, prbs := Config.prbsSeed,
    mark := decide (2 ≤ ph) && q.leader })

/-- Training fails with a cause (Table 14-11). -/
def State.trainFail (s : State) (p cause : Nat) : State :=
  let ph := (s.port p).ph
  let s := (s.modPort p (fun q => { q with st := 3, cause := cause })).logPort p 0x21 [cause, ph]
  s.linkDone p (if cause = 5 then stIdClash else stTimeout)

/-- Training starts: this end (`own`) starts it at a DOWN or FAILED port, a partner at any port that is neither RETIRED nor
training (R344, R346). With PKGCLASS 0b10 or 0b11 no stream port trains (R328). DESIGN CHOICE (notes/assumptions/58.md): beats
without an answer are sent again, and frames replayed, once the port is UP. -/
def State.trainStart (s : State) (p : Nat) (own : Bool) : State :=
  let q := s.port p
  if q.st = 4 || q.st = 1 || (own && q.st = 2) then s
  else if p < 160 && 2 ≤ s.aon.pkgclass.toNat then s.modPort p (fun q => { q with st := 3, cause := 13 })
  else
    (s.setPort p { q with
      st := 1, cause := 0, lead := own, leader := false, wd := 0, peerId := none, saved := false, swCnt := [], swCur := [], swBad := [],
      swRuns := 0, stale := false, sparesO := [], dropAns := 0, w128 := false, unans := [], outHalf := none, rxHalf := none,
      resend := [], outq := (q.unans ++ q.resend ++ q.outHalf.toList).foldr (fun b l => if b.half = 1 then l else b.data :: l) q.outq,
      chk := if p < 160 then s.aon.pkgclass = 1#2 else true }).enterPhase p 0

/-- TRAIN: LCTL.TRAIN (`own`) or a partner starts training. -/
def execTrain (pt : Nat) (own : Bool) (s : State) : Res := onPort pt s fun s => s.trainStart pt own

/-- Is a beat a presence beat: type 0xA0, 0x55 and 0xAA in every other byte? -/
def isPresence (d : BitVec 256) : Bool :=
  let b := beatBytes d
  let body := (List.range 31).map (fun i => (b.getD i 0).toNat)
  (b.getD 31 0).toNat == 0xA0 &&
    ((List.range 31).all (fun i => body.getD i 0 == (if i % 2 = 0 then 0x55 else 0xAA)) ||
     (List.range 31).all (fun i => body.getD i 0 == (if i % 2 = 0 then 0xAA else 0x55)))

/-- Both receivers have finished the phase: the next one begins; after CAP with saved settings that is VERIFY (R345, R350). The
phase DONE ends in `goUp`. -/
def State.trainStep (s : State) (p : Nat) : State :=
  let q := s.port p
  if q.st == 1 && q.mine && q.theirs && q.ph < 5 then s.enterPhase p (if q.ph = 2 && q.saved then 4 else q.ph + 1) else s

/-- A training beat is answered on ACK (R329); at width 128 it is two transfers. A beat of a later phase shows that the partner
has finished this one. -/
def State.trainHeard (s : State) (p ph : Nat) : State :=
  let q := s.port p
  if q.st != 1 then s
  else (s.setPort p { q with
    ackO := if q.w128 then q.ackO else !q.ackO, theirs := q.theirs || decide (q.ph < ph) }).trainStep p

/-- This end's receiver has finished the phase. -/
def State.trainMine (s : State) (p : Nat) : State := (s.modPort p (fun q => { q with mine := true })).trainStep p

/-- PRESENCE_BEAT: 16 consecutive presence beats end the phase; a port that is not RETIRED starts training with its partner. -/
def execPresenceBeat (pt : Nat) (d : BitVec 256) (s : State) : Res :=
  onPort pt s fun s =>
    let s := (if isPresence d then s.trainStart pt false else s).trainHeard pt 0
    let q := s.port pt
    if q.st != 1 || q.ph != 0 then s
    else if !isPresence d then s.setPort pt { q with cnt := 0 }
    else if q.cnt + 1 < 16 then s.setPort pt { q with cnt := q.cnt + 1 }
    else (s.setPort pt { q with cnt := 16 }).trainMine pt

/-- The leader is decided (R346). -/
def State.decided (s : State) (p : Nat) (own : Bool) : State :=
  (s.modPort p (fun q => { q with lead := own, leader := own, theirs := q.theirs || own })).trainMine p

/-- ROLE_BEAT: the beat carries its type in D[255:248], LEAD in D[247], WD in D[246] and the partner's link identity in
D[239:224]; the operands are its wires D[255:247], D[246:240] and D[239:0]. When both ends lead, both withdraw by 8 beats with
WD = 1, after which the lower identity leads; equal identities fail with ID_CLASH. -/
def execRoleBeat (pt : Nat) (lead : BitVec 9) (wd : BitVec 7) (id : BitVec 240) (s : State) : Res :=
  onPort pt s fun s =>
    let d : BitVec 256 := lead ++ wd ++ id
    let s := s.trainHeard pt 1
    let q := s.port pt
    let lead := d.getLsbD 247
    let wd := d.getLsbD 246
    let id : BitVec 16 := d.extractLsb' 224 16
    if q.st != 1 || q.ph != 1 || bits d.toNat 248 8 != 0xA1 || q.mine || q.wd != 0 then s
    else if q.lead then
      if lead || wd then
        if q.peerId.isSome then s
        else if id.toNat = s.linkId then s.trainFail pt 5
        else s.setPort pt { q with lead := false, wd := 8, peerId := some id }
      else s.decided pt true
    else if lead && !wd then s.decided pt false
    else s

/-- ROLEC of a port (Table 14-7). -/
def roleOf (p : Nat) : Nat := if p < 160 then 1 else if p < 170 then 2 else 3

/-- The capability beat that the chiplet sends (Table 14-7). -/
def State.capBeat (s : State) (p : Nat) : BitVec 256 :=
  BitVec.ofNat 256 (0xA2 * 2 ^ 248 + 2 * 2 ^ 244 + 0x5059 * 2 ^ 224 + 0x0081 * 2 ^ 208 + roleOf p * 2 ^ 200 + 3 * 2 ^ 196 + 3 * 2 ^ 192
    + 0x3C * 2 ^ 184 + 32 * 2 ^ 176 + 64 * 2 ^ 168 + (32 + 64 * 2 ^ 8 + 128 * 2 ^ 16 + 32 * 2 ^ 24) * 2 ^ 136 + 4 * 2 ^ 132
    + s.pos.toNat % 64 * 2 ^ 126 + s.linkId * 2 ^ 110)

/-- A field of a capability beat. -/
def capF (d : BitVec 256) (lo n : Nat) : Nat := bits d.toNat lo n

/-- The negotiation of Table 14-8: the failure's cause, or the subset: version, width 128, MINGAP, WINDOW, credits. -/
def negotiate (p : Nat) (chk : Bool) (d : BitVec 256) : Nat ⊕ List Nat :=
  let maj := capF d 244 4
  let min_ := capF d 240 4
  if !(maj == 2 || (maj == 1 && 2 ≤ min_)) then .inl 1
  else if capF d 200 8 != roleOf p then .inl 2
  else if capF d 196 2 = 0 then .inl 4
  else if p < 160 && !bit (capF d 192 4) (boolNat chk) then .inl 3
  else
    let ver := if maj = 2 then [2, 0] else [1, min_]
    let w128 := boolNat (!bit (capF d 196 4) 1)
    let gap := max 0x3C (capF d 184 8)
    let win := min 32 (capF d 176 8)
    let cr := (List.range 4).map (fun v => capF d (136 + 8 * v) 8)
    let inUse := if 170 ≤ p then [0, 3] else [0, 1, 2, 3]
    let inUse := if maj = 1 then inUse.filter (· != 3) else inUse
    if p < 160 && win < 8 then .inl 4
    else if 160 ≤ p && inUse.any (fun v => cr.getD v 0 < 17) then .inl 4
    else .inr (ver ++ [w128, gap, win] ++ cr)

/-- CAPABILITY_BEAT: 8 identical beats form the common subset; a matching record lets the port skip SWEEP (R350, R352). -/
def execCapabilityBeat (pt : Nat) (d : BitVec 256) (s : State) : Res :=
  onPort pt s fun s =>
    let s := s.trainHeard pt 2
    let q := s.port pt
    if q.st != 1 || q.ph != 2 || q.mine || capF d 248 8 != 0xA2 then s
    else
      let n := if q.peer = d then q.cnt + 1 else 1
      let s := s.setPort pt { q with peer := d, cnt := n }
      if n < 8 then s
      else match negotiate pt q.chk d with
        | .inl c => s.trainFail pt c
        | .inr sub =>
          let s := s.modPort pt (fun q => { q with
            sub := sub, vmaj := sub.getD 0 0, vmin := sub.getD 1 0, w128 := sub.getD 2 0 == 1, gap := sub.getD 3 0,
            win := sub.getD 4 0 })
          match q.record with
          | some r =>
            if !q.full && !q.wasRetired && pt < 170 && r.sub = sub && capF r.peer 208 32 = capF d 208 32
                && capF r.peer 110 16 = capF d 110 16 then
              (s.modPort pt (fun q => { q with saved := true, code := r.code, spares := r.spares, sparesO := r.sparesO })).trainMine pt
            else s.trainMine pt
          | none => s.trainMine pt

/-! ## Sweep (R347, R348) -/

/-- The longest run of codes that are in no failing mask: its first code and length. -/
def bestRun (bad : Nat) : Nat × Nat :=
  ((List.range 64).foldl (fun (acc : (Nat × Nat) × (Nat × Nat)) c =>
    let (cur, best) := acc
    if bit bad c then ((c + 1, 0), best)
    else
      let cur := (cur.1, cur.2 + 1)
      (cur, if best.2 < cur.2 then cur else best)) ((0, 0), (0, 0))).2

/-- Spares from the failing masks of the wires (256 + g is the spare of group g): none where a group needs two. -/
def choosSpares (bad : Tbl Nat) (start : Tbl (BitVec 8)) : Option (Tbl (BitVec 8)) :=
  (List.range 8).foldl (fun acc g =>
    match acc with
    | none => none
    | some t =>
      let fused := lget 0 start g
      let need := (List.range 32).filter (fun w => (bestRun (lget 0 bad (32 * g + w))).2 < 8
        && !(fused.getLsbD 7 && fused.toNat % 32 = w))
      match need with
      | [] => some (if fused.getLsbD 7 then lset t g fused else t)
      | [w] => if fused.getLsbD 7 || (bestRun (lget 0 bad (256 + g))).2 < 8 then none else some (lset t g (BitVec.ofNat 8 (128 + w)))
      | _ => none) (some [])

/-- The sweeps are over: spares, window and code, or the failure. A check-mode bundle whose wire failure the fuses record fails
with NO_WINDOW (R509). -/
def State.sweepDone (s : State) (p : Nat) : State :=
  let q := s.port p
  let spareMode : Bool := 160 ≤ p || !q.chk
  let start : Tbl (BitVec 8) := if spareMode then
      (List.range 8).foldl (fun t g =>
        let f := s.fuse 4 (p * 8 + g)
        if bit f 5 then lset t g (BitVec.ofNat 8 (128 + f % 32)) else t) [] else []
  if !spareMode && (List.range 8).any (fun g => bit (s.fuse 4 (p * 8 + g)) 5) then s.trainFail p 6
  else match (if spareMode then choosSpares q.swBad start else some []) with
  | none => s.trainFail p 7
  | some sp =>
    let wires := (List.range 256).map (fun w =>
      let g := w / 32
      if (lget 0 sp g).getLsbD 7 && (lget 0 sp g).toNat % 32 = w % 32 then lget 0 q.swBad (256 + g) else lget 0 q.swBad w)
    let wires := if q.chk && p < 160 then wires ++ (List.range 8).map (fun g => lget 0 q.swBad (256 + g))
      else if 160 ≤ p then wires ++ (List.range 9).map (fun g => lget 0 q.swBad (264 + g)) else wires
    let wires := if q.w128 then wires.zipIdx.filterMap (fun e =>
        if e.2 < 128 || (256 ≤ e.2 && (e.2 % 8 < 4 || e.2 = 264)) then some e.1 else none) else wires
    let (lo, n) := bestRun (wires.foldl Nat.lor 0)
    if n < 8 then s.trainFail p 6
    else
      s.setPort p { q with spares := sp, wlo := lo, whi := lo + n - 1, code := (lo + lo + n - 1) / 2, mine := true, mdays := 0 }

/-- SWEEP_BEAT: a pattern beat sampled at a delay code; bit w of `bad`: wire w sampled wrongly (256 to 263 the wires X, 264 to 271
the wires K and 272 FRAME of a packet port). 4,096 beats at every code are a sweep; three sweeps, one on a management port. The
results of a sweep at OP4 or OP7 under an alert are discarded (R349). -/
def execSweepBeat (pt code : Nat) (bad : BitVec 273) (s : State) : Res :=
  onPort pt s fun s =>
    let s := s.trainHeard pt 3
    let q := s.port pt
    if q.st != 1 || q.ph != 3 || q.mine || 64 ≤ code then s
    else if !s.aon.alertN && q.swRuns != 0 then s.setPort pt { q with swCnt := [], swCur := [] }
    else
      let cnt := lset q.swCnt code (lget 0 q.swCnt code + 1)
      let wb := (List.range 273).foldl (fun t w =>
        if bad.getLsbD w then lset t w (Nat.lor (lget 0 t w) (2 ^ code)) else t) q.swCur
      if (List.range 64).all (fun c => 4096 ≤ lget 0 cnt c) then
        let runs := q.swRuns + 1
        let all := wb.foldl (fun t e => lset t e.1 (Nat.lor (lget 0 t e.1) e.2)) q.swBad
        let s := s.setPort pt { q with swCnt := [], swCur := [], swBad := all, swRuns := runs }
        if runs = 3 || 170 ≤ pt then (s.sweepDone pt).trainStep pt else s
      else s.setPort pt { q with swCnt := cnt, swCur := wb }

/-- VERIFY_BEAT: a beat of the pattern passes or not; a failure after saved settings falls back to a full SWEEP (R350). -/
def execVerifyBeat (pt : Nat) (pass : Bool) (s : State) : Res :=
  onPort pt s fun s =>
    let s := s.trainHeard pt 4
    let q := s.port pt
    if q.st != 1 || q.ph != 4 || q.mine then s
    else if !pass then
      if q.saved then (s.setPort pt { q with saved := false, swCnt := [], swCur := [], swBad := [], swRuns := 0 }).enterPhase pt 3
      else s.trainFail pt 8
    else (s.setPort pt { q with cnt := q.cnt + 1, mine := q.cnt + 1 == 4096 }).trainStep pt

/-- STATUS_BEAT: the partner reports its receiver's phase and result, `none`: not passed (R345); its SWEEP's result names the spares of this end's
outbound bundle (R348). -/
def execStatusBeat (pt ph : Nat) (pass : Option (List (BitVec 8))) (s : State) : Res :=
  onPort pt s fun s =>
    let s := s.trainHeard pt ph
    let q := s.port pt
    match pass with
    | none => s
    | some spares =>
      if q.st = 1 && q.ph = ph then
        (s.setPort pt { q with
          theirs := true, sparesO := if ph = 3 then (List.range 8).foldl (fun t g => lset t g (spares.getD g 0)) [] else q.sparesO }).trainStep pt
      else s

/-- Both ends have reported DONE: the port is UP, its sequence numbers 0, its credits the partner's (R340, R345, R350). Frames
without an acknowledgement take new numbers and are replayed. -/
def State.goUp (s : State) (p : Nat) : State :=
  let q := s.port p
  if q.st != 1 || q.ph != 5 || q.tsent < 4 || !q.theirs then s
  else
    let cr : Tbl Nat := if 160 ≤ p then (List.range 4).map (fun v => (v, q.sub.getD (5 + v) 0)) else []
    let rec_ : LinkRec := { code := q.code, spares := q.spares, sparesO := q.sparesO, peer := q.peer, sub := q.sub }
    let fr := q.unacked.zipIdx.map (fun e => { e.1 with seq := BitVec.ofNat 12 e.2 })
    (s.setPort p { q with
      st := 2, cause := 0, seq := BitVec.ofNat 12 fr.length, exp := 0, ackBase := 0xFFF, unacked := fr, refr := fr, rep := none,
      cred := cr, credSeen := [], freed := [], txN := 0, rxN := 0,
      consec := 0, rate := 0, disc := false, rdisc := false, ackDue := false, nakDue := false, wasRetired := false,
      mirLo := 0, mirHi := 63, mirSeen := 0, prLo := none, prHi := none, prStep := 0,
      record := if q.saved then q.record else some rec_ }).linkDone p stOk

/-- DONE_BEAT: the partner reports DONE. -/
def execDoneBeat (pt : Nat) (s : State) : Res :=
  onPort pt s fun s =>
    let s := s.trainHeard pt 5
    let q := s.port pt
    if q.st != 1 || q.ph != 5 then s else (s.setPort pt { q with theirs := true }).goUp pt

/-! ## The beats that a training port sends (R344 to R346; Table 14-6) -/

/-- One step of the PRBS31 generator x^31 + x^28 + 1, and `n` steps. -/
def prbsStep (r : BitVec 31) : BitVec 31 := (r <<< 1) ||| (if xor (r.getLsbD 30) (r.getLsbD 27) then 1 else 0)
def prbsAdv : Nat → BitVec 31 → BitVec 31
  | 0, r => r
  | n + 1, r => prbsAdv n (prbsStep r)

/-- The pattern of `n` wires, wire k 8k bits on. -/
def prbsWires : Nat → BitVec 31 → Nat
  | 0, _ => 0
  | n + 1, r => boolNat (r.getLsbD 30) + 2 * prbsWires n (prbsAdv 8 r)

/-- Is the next beat a status beat: a leader's mark of a phase, every 256th beat of SWEEP and VERIFY, every second beat of another
phase once this receiver has finished it? -/
def Port.statusNext (q : Port) : Bool :=
  q.mark || (if q.ph = 3 || q.ph = 4 then q.tn % 256 == 255 else q.mine && q.tn % 2 == 1)

/-- The next training beat: data, the wires X, K and FRAME, whether it is slow; none once the phase's beats are sent (Table 14-6). -/
def State.trainBeat (s : State) (p : Nat) : Option (BitVec 256 × BitVec 17 × Bool) :=
  let q := s.port p
  let typed := fun (t : Nat) (body : Nat) => BitVec.ofNat 256 (t * 2 ^ 248 + body % 2 ^ 248)
  let pat := prbsWires 273 q.prbs
  if q.statusNext then
    some (typed 0xA6 (Config.statusBits q.ph q.mine ((List.range 8).map (fun g => lget 0 q.spares g))).toNat, 0, true)
  else match q.ph with
  | 0 => some (typed 0xA0 (ofBytes ((List.range 31).map (fun i => if i % 2 = 0 then 0x55 else 0xAA))), 0, true)
  | 1 => some (typed 0xA1 (boolNat q.lead * 2 ^ 247 + boolNat (q.wd != 0) * 2 ^ 246 + s.linkId * 2 ^ 224), 0, true)
  | 2 => if q.tsent < 8 then some (s.capBeat p, 0, true) else none
  | 3 => some (typed 0xA3 pat, BitVec.ofNat 17 (pat / 2 ^ 256), false)
  | 4 => if q.tsent < 4096 then some (typed 0xA4 pat, BitVec.ofNat 17 (pat / 2 ^ 256), false) else none
  | _ => if q.tsent < 4 then some (typed 0xA5 0, 0, true) else none

/-- A training beat has left: the counts; the last of 8 withdrawals lets the lower identity lead (R346). -/
def Port.trainSent (q : Port) (id : Nat) : Port :=
  let st := q.statusNext
  let q1 : Port := { q with
    reqO := if q.w128 then q.reqO else !q.reqO, tn := q.tn + 1, tgap := 0, tsent := if st then q.tsent else q.tsent + 1,
    mark := false, prbs := prbsStep q.prbs, wd := if st then q.wd else q.wd - 1 }
  if !st && q.wd = 1 then { q1 with lead := q.peerId.any (fun i => decide (id < i.toNat)) } else q1

/-- One step of a training port: a full-rate beat leaves at once; a slow one sets its data 128 steps before its REQ transition and
leaves 256 steps after the one before (R344). -/
def State.trainTurn (s : State) (p : Nat) : State :=
  let q := s.port p
  let out := fun (d : BitVec 256) (x : BitVec 17) (q : Port) =>
    let q := { q with dOut := d, xOut := x.setWidth 8 }
    if 160 ≤ p then { q with kOut := (x >>> 8).setWidth 8, frameO := x.getLsbD 16 } else q
  if q.st != 1 then s
  else match s.trainBeat p with
    | none => s.goUp p
    | some (d, x, slow) =>
      if !slow then s.setPort p ((out d x q).trainSent s.linkId)
      else if q.tgap + 1 = 128 then s.setPort p (out d x { q with tgap := 128 })
      else if q.tgap + 1 < 256 then s.setPort p { q with tgap := q.tgap + 1 }
      else (s.setPort p (q.trainSent s.linkId)).goUp p

/-- A replay's age in steps, up to 8 (R342). -/
def Port.ageRep (q : Port) : Port := { q with rep := q.rep.bind (fun r => if r.2 < 8 then some (r.1, r.2 + 1) else none) }

/-- One step of the ports: replays age, training ports send. -/
def State.linkTurn (s : State) : State :=
  let s := ((s.ports.filter (fun e => e.2.rep.isSome)).map (·.1)).foldl (fun s p => s.modPort p Port.ageRep) s
  ((s.ports.filter (fun e => e.2.st == 1)).map (·.1)).foldl State.trainTurn s

/-- TRAINING_TIMEOUT: a phase has lasted its limit; an alert stops the clock of SWEEP (R349). -/
def execTrainingTimeout (pt : Nat) (s : State) : Res :=
  onPort pt s fun s =>
    let q := s.port pt
    if q.st = 1 && q.phTick + phaseLimit q.ph ≤ s.ticks && !(q.ph == 3 && !s.aon.alertN) then s.trainFail pt 9 else s

/-- RETIRE: LCTL.RETIRE (R358). -/
def execRetire (pt : Nat) (s : State) : Res :=
  onPort pt s fun s => if (s.port pt).st = 4 then s else s.portRetire pt 12

/-- MIRROR_PERIOD: a period of 65,536 beats ends: the window of the mirrored wire, `lo` to `hi`, narrows the measured one
(R354). A group whose spare replaces a wire is not mirrored. -/
def execMirrorPeriod (pt lo hi : Nat) (s : State) : Res :=
  onPort pt s fun s =>
    let q := s.port pt
    if q.st != 2 || (pt < 160 && q.chk) then s
    else
      let g := q.mirSeen % 8
      let q' := { q with mirSeen := q.mirSeen + 1 }
      s.setPort pt (if q.used g then q' else { q' with mirLo := max q.mirLo lo, mirHi := min q.mirHi hi })

/-- A port's complete measured window since the last re-plan, if there is one (R354 to R356). -/
def Port.window (q : Port) (p : Nat) : Option (Nat × Nat) :=
  if p < 160 && q.chk then
    match q.prLo, q.prHi with
    | some l, some h => some (l, h)
    | _, _ => none
  else if 256 ≤ q.mirSeen then some (q.mirLo, q.mirHi) else none

/-- The re-plan of a receiver's code (R356). -/
def State.replanLink (s : State) (p : Nat) : State :=
  let q := s.port p
  if q.st != 2 then s
  else match q.window p with
    | none => s.setPort p { q with stale := true, mdays := min 255 (q.mdays + 1) }
    | some (lo, hi) =>
      let n := hi + 1 - lo
      let mid := (lo + hi) / 2
      let code := if q.code < mid then min mid (q.code + 2) else max mid (q.code - 2)
      let s := s.setPort p { q with
        wlo := lo, whi := hi, mdays := 0, stale := false, code := if n < 4 then q.code else code, mirLo := 0, mirHi := 63,
        mirSeen := 0, prLo := none, prHi := none, prStep := 0 }
      if n < 4 then s.portRetire p 6 else if n < 8 then s.logPort p 0x22 [lo, hi] else s

/-! ## Registers (Tables 14-10 to 14-12) -/

/-- UNCOV: spare-mode groups without a check (R334). -/
def Port.uncov (q : Port) : Nat :=
  if q.chk then 0 else ((List.range (if q.w128 then 4 else 8)).filter q.used).length

/-- LSTAT. -/
def Port.lstat (q : Port) : W32 :=
  b32 (q.st * 2 ^ 29 + q.cause * 2 ^ 25 + boolNat q.leader * 2 ^ 24 + boolNat q.chk * 2 ^ 23 + boolNat q.w128 * 2 ^ 22
    + boolNat q.stale * 2 ^ 21 + boolNat q.saved * 2 ^ 20 + q.uncov * 2 ^ 16 + q.vmaj * 2 ^ 12 + q.vmin * 2 ^ 8 + q.win)

/-- LSPAREk. -/
def Port.lspare (q : Port) (k : Nat) : W32 :=
  b32 ((List.range 4).foldl (fun acc j => acc + (lget 0 q.spares (4 * k + j)).toNat * 2 ^ (8 * j)) 0)

/-- The registers of a port in offset order. -/
def Port.regs (q : Port) : List W32 :=
  [b32 (2 * boolNat q.full), q.lstat, b32 (q.code * 2 ^ 24 + q.whi * 2 ^ 16 + q.wlo * 2 ^ 8 + q.mdays), q.lspare 0, q.lspare 1,
   q.crcerr, q.replay, q.lretry] ++ (List.range 8).map (fun k => b32 (capF q.peer (32 * k) 32))

end Sys2Proof.Machine
end

