-- ==== Sys2Proof/Machine/Frames.lean ====
section
/-!
DEFINITION. The packet ports' frames: headers, sequence numbers, credits, replay and reports (R338 to R343; Tables 14-4 and
14-5). A flit is 272 bits: the spares X and the check bits K above its 256 data bits; the first flit of a frame has
PPn_FRAME = 1. At width 128 the low nibbles of K and X go with the low half, the high nibbles with the high half.
-/

namespace Sys2Proof.Machine

/-- Check bits of a flit: PPn_FRAME is fed in first (R338); a half keeps the low four bits (R352). -/
def flitCrc (half : Bool) (first : Bool) (d : BitVec 256) : BitVec 8 :=
  if half then
    let c := fun (x : Nat) => crc8 (boolNat first * 2 ^ 128 + x) 129 0 % 16
    BitVec.ofNat 8 (c (d.toNat % 2 ^ 128) + c (d.toNat / 2 ^ 128) * 16)
  else BitVec.ofNat 8 (crc8 (boolNat first * 2 ^ 256 + d.toNat) 257 0)

/-- The data bits of a received flit, with the wires that spares replace taken from X (R338). -/
def Port.flitData (q : Port) (f : BitVec 272) : BitVec 256 :=
  (List.range 8).foldl (fun d j =>
    let g := j % q.groups
    if q.used g then
      let m := (1#256) <<< (32 * j + q.wire g)
      if f.getLsbD (264 + j) then d ||| m else d &&& ~~~m
    else d) (f.setWidth 256)

/-- Does a flit pass its check? -/
def Port.flitOk (q : Port) (first : Bool) (f : BitVec 272) : Bool :=
  flitCrc q.w128 first (q.flitData f) == (f >>> 256).setWidth 8

/-- The spares of an outbound flit: a replaced wire, the mirror of R354 at the flit's count, else 0 (R338). -/
def Port.flitX (q : Port) (n : Nat) (d : BitVec 256) : BitVec 8 :=
  BitVec.ofNat 8 ((List.range 8).foldl (fun acc j =>
    let g := j % q.groups
    acc + boolNat (
      if q.usedO g then d.getLsbD (32 * j + q.wireO g)
      else g == mirGroup n && d.getLsbD (32 * j + n / 524288 % 32)) * 2 ^ j) 0)

/-! ## Sending -/

/-- CREDCNT: flits freed per virtual channel, modulo 256. -/
def Port.credcnt (q : Port) : Nat := (List.range 4).foldl (fun acc v => acc + lget 0 q.freed v % 256 * 2 ^ (8 * v)) 0

/-- A header flit (Table 14-4). -/
def Port.header (q : Port) (ftype seq vc npl : Nat) (last : Bool) : BitVec 256 :=
  BitVec.ofNat 256 (ftype * 2 ^ 252 + seq * 2 ^ 240 + (q.exp - 1).toNat * 2 ^ 228 + 2 ^ 227 + boolNat q.nakDue * 2 ^ 226
    + vc * 2 ^ 224 + npl * 2 ^ 220 + boolNat last * 2 ^ 219 + q.credcnt * 2 ^ 152)

/-- A flit leaves on the wires; at width 128 as two transfers, whose second stays on D[127:0], K[3:0] and X[3:0] (R352). -/
def Port.driveFlit (q : Port) (first : Bool) (d : BitVec 256) : Port :=
  let k := flitCrc q.w128 first d
  let x := q.flitX q.txN d
  if q.w128 then { q with dOut := d >>> 128, kOut := k >>> 4, xOut := x >>> 4, frameO := first, txN := q.txN + 2 }
  else { q with dOut := d, kOut := k, xOut := x, frameO := first, reqO := !q.reqO, txN := q.txN + 1 }

/-- A data frame leaves: header, then payload. Its header reports what is due. -/
def Port.driveFrame (q : Port) (f : Frame) : Port :=
  let q := q.driveFlit true (q.header 1 f.seq.toNat f.vc (f.fl.length - 1) f.last)
  let q := f.fl.foldl (fun q d => q.driveFlit false d) q
  { q with ackDue := false, nakDue := false }

/-- A control frame leaves. -/
def Port.control (q : Port) : Port :=
  { q.driveFlit true (q.header 2 0 0 0 false) with ackDue := false, nakDue := false }

/-- Flits in the replay buffer. -/
def Port.replayUsed (q : Port) : Nat := q.unacked.foldl (fun n f => n + f.fl.length + 1) 0

/-- Can a virtual channel send its next frame: message waiting, credit, replay room (R340, R342)? At version 1.x dump frames
travel on VC0 behind management frames (Table 14-8), and a dump message begun there ends before a management message (R339). -/
def Port.ready (q : Port) (vc : Nat) : Bool :=
  match lget [] q.vcq vc with
  | [] => false
  | m :: _ =>
    let n := min 16 (m.length / 32)
    let wire := if q.vmaj = 1 && vc = 3 then 0 else vc
    n + 1 ≤ lget 0 q.cred wire && q.replayUsed + n + 1 ≤ 64 && q.unacked.length < 32
      && !(q.vmaj == 1 && vc == 3 && !q.part3 && !(lget [] q.vcq 0).isEmpty) && !(vc == 0 && q.part3)

/-- The virtual channel that sends next (Table 14-5). -/
def Port.nextVc (q : Port) : Option Nat :=
  if q.ready 0 then some 0 else if q.ready 1 then some 1
  else if q.lastVc = 2 then (if q.ready 3 then some 3 else if q.ready 2 then some 2 else none)
  else (if q.ready 2 then some 2 else if q.ready 3 then some 3 else none)

/-- FRAME_SEND: a replayed frame, or the next data frame. -/
def execFrameSend (pp : Nat) (s : State) : Res :=
  onPp pp s fun s =>
    let q := s.port (ppPort pp)
    if q.st != 2 then s
    else match q.refr with
      | f :: rest => s.setPort (ppPort pp) ({ q with refr := rest }.driveFrame f)
      | [] =>
        match q.nextVc with
        | none => s
        | some vc =>
          match lget [] q.vcq vc with
          | [] => s
          | m :: ms =>
            let n := min 16 (m.length / 32)
            let wire := if q.vmaj = 1 && vc = 3 then 0 else vc
            let rest := m.drop (32 * n)
            let f : Frame := { seq := q.seq, vc := wire, last := rest.isEmpty, fl := beatsFrom n m }
            let q := { q with
              vcq := cset [] q.vcq vc (if rest.isEmpty then ms else rest :: ms), seq := q.seq + 1,
              cred := lset q.cred wire (lget 0 q.cred wire - (n + 1)), unacked := q.unacked ++ [f],
              lastVc := if 2 ≤ vc then vc else q.lastVc,
              part3 := if vc = 3 then q.vmaj == 1 && !rest.isEmpty else q.part3 }
            s.setPort (ppPort pp) (q.driveFrame f)

/-! ## Replay (R342) -/

/-- A replay of every buffered frame, after an ACKSEQ `a`: without an advance of ACKSEQ since the last one it is a consecutive
failure. -/
def State.frameReplay (s : State) (p : Nat) (a : BitVec 12) : State :=
  let q := s.port p
  if q.unacked.isEmpty then s
  else
    let again : Bool := q.lastRep == some q.ackBase
    let s := s.setPort p { q with refr := q.unacked, lastRep := some q.ackBase, rep := some (a, 0) }
    let s := if again then s.countFail p else s
    if (s.port p).st = 2 then s.countReplay p else s

/-- FRAME_REPLAY_TIMEOUT: 256 steps without an advance of ACKSEQ. -/
def execFrameReplayTimeout (pp : Nat) (s : State) : Res :=
  onPp pp s fun s => if s.ppUp pp then s.frameReplay (ppPort pp) (s.port (ppPort pp)).ackBase else s

/-- What an intact header reports: ACKSEQ, NAKF, credits (R340, R342). A NAKF that names the ACKSEQ of a replay begun within 8
steps is ignored. -/
def State.hdrReport (s : State) (p : Nat) (h : BitVec 256) : State :=
  let q := s.port p
  let add := fun (v : Nat) => (capF h (152 + 8 * v) 8 + 256 - lget 0 q.credSeen v % 256) % 256
  let q := { q with
    cred := (List.range 4).foldl (fun t v => lset t v (lget 0 t v + add v)) q.cred,
    credSeen := (List.range 4).foldl (fun t v => lset t v (capF h (152 + 8 * v) 8)) q.credSeen }
  if h.getLsbD 227 then
    let a := BitVec.ofNat 12 (capF h 228 12)
    let left := q.unacked.filter (fun f => 2048 ≤ (a - f.seq).toNat)
    let adv : Bool := left.length < q.unacked.length
    let q := { q with
      unacked := left, refr := q.refr.filter (fun f => 2048 ≤ (a - f.seq).toNat),
      ackBase := if adv then a else q.ackBase, consec := if adv then 0 else q.consec,
      lastRep := if adv then none else q.lastRep }
    let s := s.setPort p q
    if h.getLsbD 226 && !(q.rep.any (fun r => r.1 == a)) then s.frameReplay p a else s
  else s.setPort p q

/-! ## Receiving (R339, R341) -/

/-- A frame fails its check: discarded, DISCARD entered, NAKF due. -/
def State.frameBad (s : State) (p : Nat) : State :=
  (s.countCrc p).modPort p (fun q => { q with rdisc := true, nakDue := true })

/-- A frame is accepted: its flits join their virtual channel's message; the last frame completes it. -/
def State.frameTake (s : State) (p vc : Nat) (last : Bool) (fl : List (BitVec 256)) : State :=
  let s := s.modPort p (fun q => { q with
    exp := q.exp + 1, rdisc := false, ackDue := true, freed := lset q.freed vc (lget 0 q.freed vc + fl.length + 1) })
  if 170 ≤ p && (vc = 1 || vc = 2) then s.logPort p 0x24 [0, vc]
  else
    let q := s.port p
    let m := lget [] q.asm vc ++ fl
    if !last then s.setPort p { q with asm := lset q.asm vc m }
    else if q.dropMsg.contains vc then
      let d := m.flatMap beatBytes
      let i : Item := { port := p - 160, bytes := d, seq := 0, tick := 0 }
      (s.setPort p { q with asm := cset [] q.asm vc [], dropMsg := q.dropMsg.erase vc }).answer i { status := stFlushed }
    else s.setPort p { q with
      asm := cset [] q.asm vc [], inbox := lset q.inbox vc (lget [] q.inbox vc ++ [m.flatMap beatBytes]) }

/-- DATA_FRAME: accepted in order, discarded, or a duplicate. Every flit is answered on ACK (R329). -/
def execDataFrame (pp : Nat) (fl : List (BitVec 272)) (s : State) : Res :=
  onPp pp s fun s =>
    let p := ppPort pp
    if !s.ppUp pp then s
    else match fl with
      | [] => s
      | hf :: body =>
        let s := s.modPort p (fun q => { q with ackO := if fl.length % 2 = 1 && !q.w128 then !q.ackO else q.ackO })
        let k := s.port p
        let h : BitVec 256 := k.flitData hf
        let good := k.flitOk true hf && body.all (k.flitOk false) && capF h 252 4 == 1 && capF h 220 4 + 1 == body.length
        if !good then s.frameBad p
        else
          let s := s.hdrReport p h
          let q := s.port p
          let d := (BitVec.ofNat 12 (capF h 240 12) - q.exp).toNat
          if d = 0 then s.frameTake p (capF h 224 2) (h.getLsbD 219) (body.map k.flitData)
          else if 2048 ≤ d then s.setPort p { q with ackDue := true }
          else s

/-- CONTROL_FRAME: a damaged one is discarded without NAKF. -/
def execControlFrame (pp : Nat) (f : BitVec 272) (s : State) : Res :=
  onPp pp s fun s =>
    let p := ppPort pp
    if !s.ppUp pp then s
    else
      let s := s.modPort p (fun q => { q with ackO := if q.w128 then q.ackO else !q.ackO })
      let k := s.port p
      let h : BitVec 256 := k.flitData f
      if k.flitOk true f && capF h 252 4 == 2 then s.hdrReport p h else s.countCrc p

/-- ACKSEQ_REPORT: an accepted or discarded frame is reported in a control frame; with a data frame ready the report waits for
that frame's header (R343). -/
def execAckseqReport (pp : Nat) (s : State) : Res :=
  onPp pp s fun s =>
    let q := s.port (ppPort pp)
    if q.st = 2 && (q.ackDue || q.nakDue) && q.refr.isEmpty && q.nextVc.isNone then s.setPort (ppPort pp) q.control else s

/-- CONTROL_FRAME_INTERVAL: an UP port sends a control frame. -/
def execControlFrameInterval (pp : Nat) (s : State) : Res :=
  onPp pp s fun s => if s.ppUp pp then s.modPort (ppPort pp) Port.control else s

/-- The oldest message of a virtual channel's inbox, if it satisfies a test; the state without it. -/
def State.popMsg (s : State) (pp vc : Nat) (p : List Byte → Bool) : Option (List Byte × State) :=
  let q := s.port (ppPort pp)
  match lget [] q.inbox vc with
  | [] => none
  | m :: ms => if p m then some (m, s.setPort (ppPort pp) { q with inbox := cset [] q.inbox vc ms }) else none

end Sys2Proof.Machine
end

