-- ==== Sys2Proof/Machine/NteWire.lean ====
section
/-!
DEFINITION. Ethernet frames of the NTE slices: IEEE 802.3 and 802.1Q, IPv4 and IPv6, UDP, and the RoCEv2 headers with their
ICRC (R361, R362). The spec names these standards and does not repeat their layouts: PRESUMED, notes/assumptions/30.md.
-/

namespace Sys2Proof.Machine

/-- The `n` bytes of a number, most significant first; and back. -/
def beBytes (n x : Nat) : List Byte := (toBytes n x).reverse
def beVal (d : List Byte) : Nat := ofBytes d.reverse

/-- Field of a frame, most significant byte first. -/
def bef (d : List Byte) (o n : Nat) : Nat := beVal ((d.drop o).take n)

/-- CRC-32 of IEEE 802.3, least significant bit first: one byte, then a byte string. -/
def crc32Bit (c : Nat) : Nat := if c % 2 = 1 then (c / 2) ^^^ 0xEDB88320 else c / 2
def crc32Byte (c : Nat) (b : Byte) : Nat :=
  crc32Bit (crc32Bit (crc32Bit (crc32Bit (crc32Bit (crc32Bit (crc32Bit (crc32Bit (c ^^^ b.toNat))))))))
def crc32 (d : List Byte) : Nat := d.foldl crc32Byte 0xFFFFFFFF ^^^ 0xFFFFFFFF

/-- Bytes `o` up to `o + n` replaced by ones. -/
def ones (d : List Byte) (o n : Nat) : List Byte := d.take o ++ List.replicate n 0xFF#8 ++ d.drop (o + n)

/-- ICRC of an IP packet without its last four bytes: the fields that routers change count as ones. -/
def icrc (ip : List Byte) : List Byte :=
  let v6 : Bool := bef ip 0 1 / 16 == 6
  let h := if v6 then 40 else 20
  let m := if v6 then [0x6F#8, 0xFF#8, 0xFF#8, 0xFF#8] ++ (ones ip 7 1).drop 4
    else ones (ones (ones ip 1 1) 8 1) 10 2
  let m := ones (ones m (h + 6) 2) (h + 8 + 4) 1
  toBytes 4 (crc32 (List.replicate 8 0xFF#8 ++ m))

/-- One's complement sum of the 16-bit words of an IPv4 header. -/
def sum16 : List Byte → Nat
  | a :: b :: r => a.toNat * 256 + b.toNat + sum16 r
  | _ => 0
def ipSum (d : List Byte) : Nat :=
  let x := sum16 d
  let x := x % 65536 + x / 65536
  0xFFFF - (x % 65536 + x / 65536)

/-- BTH: opcode, SE, pad count, destination QPN, AckReq, PSN. -/
def bth (op : Nat) (se : Bool) (pad qpn : Nat) (ackReq : Bool) (psn : Nat) : List Byte :=
  beBytes 1 op ++ beBytes 1 (128 * boolNat se + 16 * pad) ++ beBytes 2 0xFFFF ++ [0] ++ beBytes 3 qpn
    ++ beBytes 1 (128 * boolNat ackReq) ++ beBytes 3 psn

/-- A frame to the peer of a queue pair: flit 0 with the length, then the frame (R362). ECN is ECT(0) = 2 on data packets. -/
def frameOf (n : Nte) (q : QpSet) (ecn : Nat) (tp : List Byte) : List Byte :=
  let tag := if n.vlan = 0 then [] else beBytes 2 0x8100 ++ beBytes 2 (n.pcp * 8192 + n.vlan)
  let udp := beBytes 2 q.sport ++ beBytes 2 4791 ++ beBytes 2 (8 + tp.length + 4) ++ beBytes 2 0
  let ip :=
    if q.v6 then
      beBytes 4 (6 * 2 ^ 28 + (q.dscp * 4 + ecn) * 2 ^ 20 + q.flow) ++ beBytes 2 (8 + tp.length + 4) ++ [17]
        ++ beBytes 1 q.ttl ++ beBytes 16 n.ip6.toNat ++ beBytes 16 q.ip.toNat
    else
      let h := fun (c : Nat) => beBytes 1 0x45 ++ beBytes 1 (q.dscp * 4 + ecn) ++ beBytes 2 (28 + tp.length + 4)
        ++ beBytes 2 0 ++ beBytes 2 0x4000 ++ beBytes 1 q.ttl ++ [17] ++ beBytes 2 c ++ beBytes 4 n.ip4.toNat
        ++ beBytes 4 q.ip.toNat
      h (ipSum (h 0))
  let pkt := ip ++ udp ++ tp
  let f := beBytes 6 q.mac.toNat ++ beBytes 6 n.mac.toNat ++ tag ++ beBytes 2 (if q.v6 then 0x86DD else 0x0800) ++ pkt ++ icrc pkt
  padFlits (toBytes 2 f.length ++ List.replicate 30 0 ++ f)

/-- What becomes of a received frame: dropped and counted (R361), dropped, or a packet for a queue pair. -/
inductive RxFrame
  | count
  | drop
  | pkt (p : RxPkt)
deriving DecidableEq, Repr

/-- RC opcodes with a RETH, an AETH, an immediate. -/
def hasReth (op : Nat) : Bool := op == 6 || op == 0xA || op == 0xB || op == 0xC
def hasAeth (op : Nat) : Bool := op == 0xD || op == 0xF || op == 0x10 || op == 0x11
def hasImm (op : Nat) : Bool := op == 3 || op == 5 || op == 9 || op == 0xB

/-- The transport headers and payload of a packet. -/
def rxBth (t : List Byte) (ce : Bool) : RxFrame :=
  let op := bef t 0 1
  let qpn := bef t 5 3
  if qpn ≤ 1 || (32 ≤ op && op != 0x81) then .count
  else if qpn < 0x200 || 0x400 ≤ qpn then .drop
  else
    let a := 12
    let r := a + (if hasReth op then 16 else 0)
    let e := r + (if hasAeth op then 4 else 0)
    let i := e + (if hasImm op then 4 else 0)
    let pad := bef t 1 1 / 16 % 4
    .pkt { qp := qpn - 0x200, op := op, psn := bef t 9 3, ackReq := bit (bef t 8 1) 7, ce := ce,
           va := if hasReth op then bef t a 8 else 0, rkey := if hasReth op then bef t (a + 8) 4 else 0,
           len := if hasReth op then bef t (a + 12) 4 else 0, syn := if hasAeth op then bef t r 1 else 0,
           imm := if hasImm op then bef t e 4 else 0,
           data := (t.drop i).take (t.length - 4 - pad - i) }

/-- An IP packet at a slice: IPv4 without options and with DF, IPv6 without extension headers, UDP to port 4791, an intact
ICRC, the slice's own address (R361, R363). -/
def rxIp (n : Nte) (v6 : Bool) (ip : List Byte) : RxFrame :=
  let h := if v6 then 40 else 20
  let ok := if v6 then bef ip 0 1 / 16 == 6 && bef ip 6 1 == 17
    else bef ip 0 1 == 0x45 && bef ip 6 2 == 0x4000 && bef ip 9 1 == 17
  let mine := if v6 then n.ip6 != 0 && bef ip 24 16 == n.ip6.toNat else n.ip4 != 0 && bef ip 16 4 == n.ip4.toNat
  let ce := if v6 then bef ip 0 4 / 2 ^ 20 % 4 == 3 else bef ip 1 1 % 4 == 3
  if ip.length < h + 24 || !ok || bef ip (h + 2) 2 != 4791 then .count
  else if icrc (ip.take (ip.length - 4)) != ip.drop (ip.length - 4) then .count
  else if !mine then .drop
  else rxBth (ip.drop (h + 8)) ce

/-- A message of virtual channel 2: its frame. -/
def rxFrame (n : Nte) (m : List Byte) : RxFrame :=
  let f := (m.drop 32).take (fld m 0 2)
  let tagged : Bool := bef f 12 2 == 0x8100
  let vid := if tagged then bef f 14 2 % 4096 else 0
  let o := if tagged then 16 else 12
  let et := bef f o 2
  if et != 0x0800 && et != 0x86DD then .count
  else if bef f 0 6 != n.mac.toNat || vid != n.vlan then .drop
  else
    let ip := f.drop (o + 2)
    let v6 : Bool := et == 0x86DD
    let len := if v6 then 40 + bef ip 4 2 else bef ip 2 2
    rxIp n v6 (ip.take len)

end Sys2Proof.Machine
end

