-- ==== Sys2Proof/Machine/Sync.lean ====
section
/-!
DEFINITION. Sync objects, watches and the partition barrier (R179 to R193; Tables 07-1, 07-2, 07-9).
-/

namespace Sys2Proof.Machine

/-! ## Sync objects (R179 to R182)

Operations wait in the order of their arrival. The operations that reach the block in one step are the longest prefix of
that queue with one operation per source: the network interface delivers at most one a step. `syncN` counts those of the
current step still to apply, in the order of R181 (notes/assumptions/23.md). -/

/-- SPORT of the operation of a barrier release, and of a host signal's operation at its object: codes of the model's own. -/
def spRelease : Nat := 512
def spSignal : Nat := 513

/-- Source of an operation as SYNC_OVERFLOW names it: 512 a barrier release, 513 a host signal, else its SPORT code, 256 for
the network interface. -/
def Acc.source (a : Acc) : Nat := if 512 ≤ a.sport then a.sport else if a.remote then 256 else a.sport

/-- Rank of a source, highest first: barrier release, cobbles by index, network interface, DMA, stream and cache engines
(R181). -/
def Acc.rank (a : Acc) : Nat :=
  if a.sport = spRelease then 0 else if a.remote then 257 else a.sport + 1

/-- Object index and operation of an access: 0 SET, 1 ADD, 2 READ. -/
def Acc.syncObj (a : Acc) : Nat := bits a.off 4 4
def Acc.syncOp (a : Acc) : Nat := if a.kind = .rd then 2 else bits a.off 2 2

/-- Length of the longest prefix with distinct sources. -/
def stepLen : List Nat → List Acc → Nat
  | _, [] => 0
  | seen, a :: rest => if a.rank ∈ seen then 0 else stepLen (a.rank :: seen) rest + 1

/-- The operations of the current step. -/
def Block.syncStep (k : Block) : List Acc :=
  k.syncIn.take (if k.syncN = 0 then stepLen [] k.syncIn else k.syncN)

/-- Does an operation of the step go before `a` on its object: SETs, then ADDs, then READs? -/
def earlier (g : List Acc) (a : Acc) : Bool := g.any (fun x => x.syncObj == a.syncObj && x.syncOp < a.syncOp)

/-- The next operation of kind `op` in the step: SETs from the lowest rank up, so that the highest-ranked stands; ADDs and
READs from the highest rank down. -/
def Block.nextSync (k : Block) (op : Nat) : Option Acc :=
  let g := k.syncStep
  let c := g.filter (fun a => a.syncOp = op && !earlier g a)
  match c with
  | [] => none
  | a :: rest =>
    some (rest.foldl (fun m x => if (if op = 0 then m.rank < x.rank else x.rank < m.rank) then x else m) a)

/-- A watch is over: its cobble is told, in its own block or at LEVEL 3 across the mesh (R183, R184). -/
def State.wake (s : State) (b : Nat) (w : Watch) (refused : Bool) : State :=
  let d := blkOf w.cid
  if d = b then s.modBlk b (fun k => { k with wakes := k.wakes ++ [(w, refused)] })
  else s.ni b { cls := 2, level := 3, nfl := 0, dst := d, src := b, sport := 260, pay := .wake w refused }

/-- VALUE of an object word. -/
def syncValue (w : W32) : Nat := w.toNat % 2 ^ 31

/-- The watches on an object that are met are woken, once (R184). -/
def State.wakeMet (s : State) (b i : Nat) : State :=
  let k := s.blk b
  let v := syncValue (lget 0 k.sync i)
  let met := fun (w : Watch) => w.obj = b * 16 + i && w.target ≤ v
  let hit := k.lwatch.filter met ++ k.rwatch.filter met
  let s := s.setBlk b { k with lwatch := k.lwatch.filter (fun w => !met w), rwatch := k.rwatch.filter (fun w => !met w) }
  hit.foldl (fun s w => s.wake b w false) s

/-- Every watch on an object ends REFUSED (R193). -/
def State.refuseAll (s : State) (b i : Nat) : State :=
  let k := s.blk b
  let on := fun (w : Watch) => w.obj = b * 16 + i
  let s := s.setBlk b { k with lwatch := k.lwatch.filter (fun w => !on w), rwatch := k.rwatch.filter (fun w => !on w) }
  (k.lwatch.filter on ++ k.rwatch.filter on).foldl (fun s w => s.wake b w true) s

/-- Adds to an object: whether VALUE would exceed 2^31 − 1, in which case ERR is set and the event logged (R182). The
source of a barrier release is 512. -/
def State.objAdd (s : State) (b i n src : Nat) : Bool × State :=
  let k := s.blk b
  let w := lget 0 k.sync i
  if 2 ^ 31 ≤ syncValue w + n then
    (false, (s.setBlk b { k with sync := lset k.sync i (w ||| 0x80000000#32) }).logBlk b 6 [b * 16 + i, src])
  else (true, s.setBlk b { k with sync := lset k.sync i (w + b32 n) })

/-- One operation leaves the queue; the watches are compared at the end of the object's step. -/
def State.syncTake (s : State) (b : Nat) (a : Acc) : State :=
  s.modBlk b (fun k => { k with syncIn := k.syncIn.erase a, syncN := k.syncStep.length - 1 })

def State.syncSettle (s : State) (b i : Nat) : State :=
  let k := s.blk b
  if k.syncN != 0 && k.syncStep.any (fun x => x.syncObj = i && x.syncOp ≤ 1) then s else s.wakeMet b i

/-- A signal reply (Table 07-6). -/
def sigReply (m : List Byte) (status word : Nat) (time : BitVec 64) : List Byte :=
  [2, BitVec.ofNat 8 status] ++ toBytes 2 (fld m 2 2) ++ toBytes 2 (fld m 4 2) ++ toBytes 2 (fld m 6 1)
    ++ toBytes 4 word ++ toBytes 4 0 ++ toBytes 8 time.toNat ++ toBytes 8 0

/-- The reply to a host signal, where one is due, leaves by its packet port: by the sync unit's packet to the port's block, at
the signal's level 3, unless it is that block (R195, R317). -/
def State.sigReturn (s : State) (b : Nat) (x : Signal) (status word : Nat) (time : BitVec 64) : State :=
  if fld x.msg 7 1 % 2 = 0 && fld x.msg 1 1 != 2 && status = 0 then s
  else if ppBlk x.port = b then s.sendMsg x.port 1 (sigReply x.msg status word time)
  else s.ni b { cls := 2, level := 3, nfl := 0, dst := ppBlk x.port, src := b, sport := 260, pay := .sigAns x status word time }

/-- The end of a sync operation at its object (R182, R193, R196): a barrier release answers nobody, and ends every watch where
it failed; a host signal replies with the object's word; any other source gets its answer. -/
def State.syncEnd (s : State) (b : Nat) (a : Acc) (ok : Bool) (data : List Byte) : State :=
  if a.sport = spRelease then (if ok then s else s.refuseAll b a.syncObj)
  else if a.sport = spSignal then
    match (s.blk b).sigs.find? (fun e => e.1 == a.tag) with
    | none => s
    | some (n, x) =>
      (s.modBlk b (fun k => { k with sigs := lfilter (· != n) k.sigs })).sigReturn b x (if ok then 0 else stBadParam)
        (lget 0 (s.blk b).sync a.syncObj).toNat s.pktime
  else s.reply b a (if ok then 0 else 6) data

/-- A signal that fails before its operation: its object word and time are free values (notes/assumptions/1.md). -/
def State.sigRefuse (s : State) (b : Nat) (x : Signal) (status : Nat) : State :=
  let (v, s) := s.draw
  let (t, s) := s.draw
  s.sigReturn b x status (v.toNat % 2 ^ 32) t

/-- A host signal reaches its target block (R196, checks 3 and 4): its operation joins the sync unit's as one from the network
interface (R181). -/
def State.sigArrive (s : State) (b : Nat) (x : Signal) : State :=
  let k := s.blk b
  let obj := fld x.msg 4 2
  if k.fence || k.rstFence then s.sigRefuse b x stFenced
  else if !k.sigperm.getLsbD (obj % 16) then
    (s.logEvent 4 x.port 0x42 (fld x.msg 6 1) [(s.tenantOf b).toNat, 1, obj]).sigRefuse b x stDenied
  else
    let op := fld x.msg 1 1
    s.setBlk b { k with
      sigs := lset k.sigs k.sigSeq x, sigSeq := k.sigSeq + 1,
      syncIn := k.syncIn ++ [{
        kind := if op = 2 then .rd else .wr, space := 2, off := obj % 16 * 16 + (if op = 0 then 4 else 0), size := 4,
        data := if op = 2 then [] else toBytes 4 (fld x.msg 8 4), mask := 15, sblk := ppBlk x.port, sport := spSignal,
        tag := k.sigSeq, level := 3, sclass := 1, sdie := s.pos.toNat, tenant := s.tenantOf b, remote := true }] }

/-- SYNC_SET: VALUE takes the data and ERR clears. -/
def execSyncSet (b : Nat) (s : State) : Res :=
  onBlk b s fun s =>
    match (s.blk b).nextSync 0 with
    | none => s
    | some a =>
      let s := s.syncTake b a
      let s := s.modBlk b (fun k => { k with sync := lset k.sync a.syncObj (b32 (a.val % 2 ^ 31)) })
      (s.syncSettle b a.syncObj).syncEnd b a true []

/-- SYNC_ADD: VALUE rises, or the ADD fails on overflow and its requester gets an error. -/
def execSyncAdd (b : Nat) (s : State) : Res :=
  onBlk b s fun s =>
    match (s.blk b).nextSync 1 with
    | none => s
    | some a =>
      let (ok, s) := (s.syncTake b a).objAdd b a.syncObj (a.val % 2 ^ 31) a.source
      (s.syncSettle b a.syncObj).syncEnd b a ok []

/-- SYNC_READ: ERR and VALUE after the step's adds. -/
def execSyncRead (b : Nat) (s : State) : Res :=
  onBlk b s fun s =>
    match (s.blk b).nextSync 2 with
    | none => s
    | some a =>
      let v := lget 0 (s.blk b).sync a.syncObj
      (s.syncTake b a).syncEnd b a true (toBytes 4 v.toNat)

/-! ## Watches (R183 to R186) -/

/-- A SYNCWATCH value. -/
def swValue (arm : Bool) (obj : BitVec 13) (target : BitVec 31) : W64 :=
  BitVec.ofNat 64 (boolNat arm * 2 ^ 63 + obj.toNat * 2 ^ 32 + target.toNat)

/-- SYNCWATCH_ARM: the write of the CSR with ARM = 1, which a CWR makes (notes/assumptions/24.md). -/
def execSyncwatchArm (c : Nat) (obj : BitVec 13) (target : BitVec 31) (s : State) : Res :=
  onCob c s fun s => if s.coreUp c then (s.swTry c (swValue true obj target)).2 else s

/-- SYNCWATCH_WITHDRAW: the write of the CSR with ARM = 0. -/
def execSyncwatchWithdraw (c : Nat) (obj : BitVec 13) (target : BitVec 31) (s : State) : Res :=
  onCob c s fun s => if s.coreUp c then (s.swTry c (swValue false obj target)).2 else s

/-- WATCH_REGISTRATION: the oldest registration is compared, kept or refused, between two steps of the sync unit: with the
value after every operation of the step (R184 to R186). -/
def execWatchRegistration (b : Nat) (s : State) : Res :=
  onBlk b s fun s =>
    let k := s.blk b
    match k.watchIn with
    | [] => s
    | (w, remote, tenant) :: rest =>
      if k.syncN != 0 then s else
      let s := s.setBlk b { k with watchIn := rest }
      if remote && tenant != s.tenantOf b then
        (s.logBlk b 0x41 [tenant.toNat, 0, s.pos.toNat]).wake b w true
      else if remote && (k.fence || k.rstFence || 32 ≤ k.rwatch.length) then s.wake b w true
      else if w.target ≤ syncValue (lget 0 k.sync (w.obj % 16)) then s.wake b w false
      else if remote then s.modBlk b (fun q => { q with rwatch := q.rwatch ++ [w] })
      else s.modBlk b (fun q => { q with lwatch := q.lwatch ++ [w] })

/-- WATCH_WAKE: a wake or refusal reaches the cobble; a stale one is discarded. -/
def execWatchWake (c : Nat) (s : State) : Res :=
  onCob c s fun s =>
    let b := blkOf c
    let q := s.blk b
    match q.wakes.find? (fun e => e.1.cid = c) with
    | none => s
    | some e =>
      let s := s.setBlk b { q with wakes := q.wakes.erase e }
      let k := s.cob c
      if k.swState = 1 && e.1.aseq = k.aseq then
        (s.setCob c { k with swHeld := if k.swOut then k.swHeld else none, swState := if e.2 then 3 else 2, ipSignal := true }).settleWait c
      else s

/-- WITHDRAWAL_ACK: the write that waited may go on. -/
def execWithdrawalAck (c : Nat) (s : State) : Res :=
  onCob c s fun s =>
    let b := blkOf c
    let q := s.blk b
    if c ∈ q.wdAcks then
      (s.setBlk b { q with wdAcks := q.wdAcks.erase c }).modCob c (fun k =>
        if k.swOut then { k with swOut := false, swHeld := none, swState := if k.swState = 1 then 0 else k.swState } else k)
    else s

/-- SVXCTL_WRITE: the write of SVXCTL.AWAKE, which a CWR makes (R131). -/
def execSvxctlWrite (c : Nat) (awake : Bool) (s : State) : Res :=
  onCob c s fun s => if s.coreUp c then s.modCob c (fun k => k.svxctl awake) else s

/-! ## The barrier (R189 to R193) -/

/-- The rectangle of a block's partition: first column, columns, first row, rows. -/
def State.rect (s : State) (b : Nat) : Nat × Nat × Nat × Nat :=
  let p := s.partOfBlk b
  let mine := (List.range 10).filter (fun i => (s.isl i).part == p)
  let cols := (List.range 5).filter (fun x => mine.any (fun i => i % 5 == x))
  let halves := (List.range 2).filter (fun h => mine.any (fun i => i / 5 == h))
  (4 * cols.headD 0, 4 * cols.length, 8 * halves.headD 0, 8 * halves.length)

/-- The root of the barrier tree (R189). -/
def State.barRoot (s : State) (b : Nat) : Nat :=
  let (x, w, y, h) := s.rect b
  (y + h / 2 - 1) * 20 + (x + w / 2 - 1)

/-- The parent of a block in the tree; none for the root. -/
def State.barParent (s : State) (b : Nat) : Option Nat :=
  let r := s.barRoot b
  if b = r then none
  else if byOf b = byOf r then some (if bxOf b < bxOf r then b + 1 else b - 1)
  else some (if byOf b < byOf r then b + 20 else b - 20)

/-- The blocks of a block's partition. -/
def State.partBlks (s : State) (b : Nat) : List Nat :=
  let (x, w, y, h) := s.rect b
  (List.range h).flatMap (fun j => (List.range w).map (fun i => (y + j) * 20 + x + i))

/-- Have a block and all its children arrived (R190)? -/
def State.barArrived (s : State) (b : Nat) : Bool :=
  let k := s.blk b
  k.count == k.expect &&
    ((s.partBlks b).filter (fun d => s.barParent d == some b)).all (fun d => d ∈ k.childArr)

/-- BARRIER_ARRIVAL: a store to BARARRIVE counts in COUNT or EARLY, or is refused (R190, R192). -/
def execBarrierArrival (b : Nat) (s : State) : Res :=
  onBlk b s fun s =>
    match s.popCtl b (fun a => a.writes 0x1508) with
    | none => s
    | some (a, s) =>
      let k := s.blk b
      if k.count < k.expect then (s.setBlk b { k with count := k.count + 1 }).reply b a 0 []
      else if k.early < k.expect then (s.setBlk b { k with early := k.early + 1 }).reply b a 0 []
      else (s.logBlk b 8 [k.barstat.toNat]).reply b a 6 []

/-- BARRIER_CHILD_ARRIVAL: the arrival of node `b` reaches its parent. -/
def execBarrierChildArrival (b : Nat) (s : State) : Res :=
  onBlk b s fun s =>
    let k := s.blk b
    match s.barParent b with
    | none => s
    | some p =>
      if s.partOfBlk b != 0xFF && s.barArrived b && !k.barUp then
        (s.setBlk b { k with barUp := true }).modBlk p (fun q => { q with childArr := insertNat b q.childArr })
      else s

/-- The ADD of 1 that a release makes at its object (R191). -/
def relAcc (b idx : Nat) : Acc :=
  { kind := .wr, space := 2, off := idx * 16 + 4, size := 4, data := toBytes 4 1, mask := 15, sblk := b, sport := spRelease }

/-- A generation is released at one block: the counts move, and the ADD joins the sync unit's operations at its rank
(R181, R191, R193). -/
def State.barRelease (s : State) (b : Nat) : State :=
  s.modBlk b (fun k =>
    let k := { k with childArr := [], barUp := false }
    if k.expect = 0 then k
    else { k with gen := !k.gen, count := k.early, early := 0, syncIn := k.syncIn ++ [relAcc b k.barIdx] })

/-- BARRIER_RELEASE: the root of the partition of block `b` releases the generation. -/
def execBarrierRelease (b : Nat) (s : State) : Res :=
  onBlk b s fun s =>
    if s.partOfBlk b != 0xFF && s.barArrived (s.barRoot b) then
      (s.partBlks b).foldl State.barRelease s
    else s

end Sys2Proof.Machine
end

