-- ==== Sys2Proof/Machine/Nte.lean ====
section
/-!
DEFINITION. The network transport engine (R361 to R380): memory accesses of a slice, receiving, work requests, sending,
completions, timers and rate control. Accesses to memory and sync objects go through the target blocks' network interfaces
(R368); their answers wait at the attachment block and are taken up by the slice's next command.
-/

namespace Sys2Proof.Machine

/-- Does the slice run? It is not fenced, nor its attachment block (R378, R444). -/
def State.nteUp (s : State) (i : Nat) : Bool := !s.engOff (ppBlk i) 3

/-- A distance of PSNs modulo 2^24. -/
def psnDist (a b : Nat) : Nat := (a + 2 ^ 24 - b % 2 ^ 24) % 2 ^ 24
def psnAdd (a n : Nat) : Nat := (a + n) % 2 ^ 24

/-- Packets of a message of `len` bytes (R373, Table 15-1). -/
def pktsOf (len mtu : Nat) : Nat := max 1 ((len + mtu - 1) / mtu)

/-! ## Accesses of a slice -/

/-- The pieces of `len` bytes from `off` within aligned 64-byte units: offset, length, position. -/
def units64 : Nat → Nat → Nat → Nat → List (Nat × Nat × Nat)
  | 0, _, _, _ => []
  | f + 1, off, len, pos =>
    if len = 0 then [] else
      let n := min len (64 - off % 64)
      (off, n, pos) :: units64 f (off + n) (len - n) (pos + n)

def piecesOf (off len : Nat) : List (Nat × Nat × Nat) := units64 (len / 64 + 2) off len 0

/-- Reads `len` bytes of a block store piece by piece. -/
def State.nteRead (s : State) (i q : Nat) (use : NteUse) (psn mr dst off cls len : Nat) : State :=
  (piecesOf off len).foldl (fun s p => s.nteAcc i q use psn p.2.2 mr dst 0 p.1 cls .rd p.2.1 []) s

/-- Writes bytes into a block store piece by piece; FE bits are kept (R178, R369). -/
def State.nteWrite (s : State) (i q : Nat) (use : NteUse) (psn mr dst off cls : Nat) (d : List Byte) : State :=
  (piecesOf off d.length).foldl (fun s p =>
    s.nteAcc i q use psn p.2.2 mr dst 0 p.1 cls .wr p.2.1 ((d.drop p.2.2).take p.2.1)) s

/-- Block and offset of a buffer: space 0x0 of a block of the partition on the own die, not past the end of the block store. -/
def State.nteBuf (s : State) (i laddr len : Nat) : Option (Nat × Nat) :=
  match s.global (ppBlk i) laddr with
  | .die 0 blk _ off => if laddr < 2 ^ 56 && off + len ≤ 2 ^ 21 then some (blk, off) else none
  | _ => none

/-- SQ count of the work request that a PSN belongs to, and its USER; CONS where none does. -/
def Qp.workAt (k : Qp) (psn : Nat) : Nat × BitVec 64 :=
  match k.works.find? (fun w => psnDist psn w.psn < w.npkt) with
  | some w => (w.idx, w.user)
  | none => (k.sqcons.toNat, 0)

/-- The requester's or the responder's failure (R377). -/
def State.sqFail (s : State) (i q code psn : Nat) : State :=
  let (x, u) := (s.qp i q).workAt psn
  s.qpFail i q code x u
def State.rqFail (s : State) (i q code : Nat) : State := s.qpFail i q code (s.qp i q).rqcons.toNat 0

/-- A failure that the responder answers with a NAK first. -/
def State.nakFail (s : State) (i q psn syn code : Nat) : State :=
  (s.modQp i q (fun k => { k with out := k.out ++ [.nak psn syn] })).rqFail i q code

/-- AETH syndromes: NAK codes Sequence Error, Invalid Request, Remote Access Error, Remote Operational Error; RNR NAK. -/
def synSeq : Nat := 0x60
def synInv : Nat := 0x61
def synAcc : Nat := 0x62
def synOp : Nat := 0x63
def synRnr (t : Nat) : Nat := 0x20 + t % 32

/-- An access that is answered with an error for good: refused, or lost nine times or poisoned (R369, R371, R374, R377). -/
def State.nteErr (s : State) (i : Nat) (a : NteAcc) (status : Nat) : State :=
  let hard : Bool := status == 3 || status == 4
  match a.use with
  | .place => if hard then s.nakFail i a.qp a.psn synOp 0xC else s.nakFail i a.qp a.psn synAcc 0xA
  | .readSrc => if hard then s.nakFail i a.qp a.psn synOp 0xC else s.nakFail i a.qp a.psn synAcc 0xA
  | .recv => if hard then s.nakFail i a.qp a.psn synOp 0xC else s.rqFail i a.qp 4
  | .wqe => s.qpFail i a.qp (if status = 4 then 2 else 4) (s.qp i a.qp).sqNext.toNat 0
  | .rqe => s.rqFail i a.qp (if status = 4 then 2 else 4)
  | .src => s.sqFail i a.qp 4 a.psn
  | .resp => s.sqFail i a.qp 4 a.psn
  | .record => s.rqFail i a.qp 4
  | .sqAdd => s.sqFail i a.qp 0xD a.psn
  | .rqAdd => s.rqFail i a.qp 0xD
  | .orphan => s

/-- Bytes join the payload that is being read. -/
def SendBuf.add (b : SendBuf) (a : NteAcc) (d : List Byte) : SendBuf :=
  { b with
    data := (List.range d.length).foldl (fun t j => lset t (a.pos + j) (d.getD j 0)) b.data,
    wait := b.wait.filter (· != a.tag) }

/-- An access has been answered OK. -/
def State.nteOk (s : State) (i : Nat) (a : NteAcc) (d : List Byte) : State :=
  match a.use with
  | .wqe => s.modQp i a.qp (fun k => { k with wqe := some d, wqeRd := false })
  | .rqe => s.modQp i a.qp (fun k => { k with rqe := some d, rqeRd := false })
  | .src => s.modQp i a.qp (fun k => { k with buf := k.buf.map (fun b => b.add a d) })
  | .readSrc => s.modQp i a.qp (fun k => { k with buf := k.buf.map (fun b => b.add a d) })
  | .sqAdd => s.modQp i a.qp (fun k => { k with sqcons := k.sqcons + 1, works := k.works.drop 1 })
  | .rqAdd => s.modQp i a.qp (fun k => { k with rqcons := k.rqcons + 1, recvs := k.recvs.drop 1 })
  | _ => s

/-- A region close that waits is acknowledged once its placements are (R373). -/
def State.nteClosed (s : State) (i : Nat) : State :=
  let n := s.nte i
  let busy := fun (c : Acc × List Nat) => c.2.any (fun t => n.accs.any (fun a => a.tag == t))
  (n.closing.filter (fun c => !busy c)).foldl (fun s c => s.reply (ppBlk i) c.1 0 [])
    (s.modNte i (fun n => { n with closing := n.closing.filter busy }))

/-- One answer is taken up: a lost access goes out again up to eight times (R371). -/
def State.nteAns (s : State) (i : Nat) (r : Ans) : State :=
  match (s.nte i).accs.find? (fun a => a.wire == some r.tag) with
  | none => s
  | some a =>
    if r.status = 3 && a.tries < 8 && a.use != .orphan then
      (s.modNte i (fun n => { n with accs := n.accs.replace a { a with tries := a.tries + 1 } })).nteSend i a.dst r.tag a.acc
    else
      let s := s.modNte i (fun n => { n with accs := n.accs.erase a })
      ((if r.status = 0 then s.nteOk i a r.data else s.nteErr i a r.status).nteClosed i).ntePump i

/-- The answers that wait at the attachment block of a slice. -/
def State.nteTake (s : State) (i : Nat) : State :=
  let b := ppBlk i
  let mine := (s.blk b).engAns.filter (fun a => a.sport == 261)
  (mine.foldl (fun s a => s.nteAns i a) (s.modBlk b (fun k => { k with engAns := k.engAns.filter (fun a => a.sport != 261) }))).ntePump i

/-- A command about a running slice. -/
def onNte (i : Nat) (s : State) (f : State → State) : Res :=
  onIsl i s fun s => s.stage i fun s => if s.nteUp i then f (s.nteTake i) else s

/-- A command about a queue pair that is ready to send (RTS). -/
def onQp (i q : Nat) (s : State) (f : Qp → State → State) : Res :=
  onNte i s fun s => if (s.qp i q).stat = 1 && !s.suspHeld true (ppBlk i) q then f (s.qp i q) s else s

/-! ## Receiving (R361, R363, R369 to R373, R376) -/

/-- Does an opcode belong to the subset of Table 15-1? -/
def rcOp (op : Nat) : Bool := op ≤ 0x11 || op == 0x81

/-- The kind of a packet's E test: accepted, duplicate, or out of sequence (R376). -/
def Qp.seqTest (k : Qp) (psn : Nat) : Nat := let d := psnDist psn k.epsn; if d = 0 then 0 else if 2 ^ 23 ≤ d then 1 else 2

/-- A packet out of sequence: one NAK Sequence Error per value of E. -/
def Qp.seqNak (k : Qp) : Qp := if k.nakd then k else { k with nakd := true, out := k.out ++ [.nak k.epsn synSeq] }

/-- NTE_FRAME_RECEIVED: a frame of virtual channel 2 is matched to a queue pair in RTS, or dropped. A packet marked CE brings
a CNP, at most one per 50 µs (R379). While the partition is fenced every frame is dropped unanswered (R378). -/
def execNteFrameReceived (i : Nat) (s : State) : Res :=
  onIsl i s fun s =>
    match s.popMsg i 2 (fun _ => true) with
    | none => s
    | some (m, s) =>
      if !s.nteUp i then s
      else
        let s := s.nteTake i
        match rxFrame (s.nte i) m with
        | .count => s.modNte i (fun n => { n with drop := satInc n.drop })
        | .drop => s
        | .pkt p =>
          let k := s.qp i p.qp
          if k.stat != 1 then s
          else if !rcOp p.op then
            if k.seqTest p.psn = 0 then s.nakFail i p.qp p.psn synInv 0xB
            else if k.seqTest p.psn = 2 then s.setQp i p.qp k.seqNak else s
          else
            let cnp : Bool := p.ce && (match k.cnpTx with
              | none => true
              | some t => decide (t + 5000 ≤ s.ticks))
            let s := if cnp then s.setQp i p.qp { k with cnpDue := true, cnpTx := some s.ticks } else s
            s.modNte i (fun n => { n with rxq := n.rxq ++ [p] })

/-- The oldest received packet, where its opcode satisfies a test and its queue pair is in RTS; a packet whose queue pair has
left RTS is dropped (R364). -/
def rxCmd (i : Nat) (t : RxPkt → Bool) (s : State) (f : RxPkt → Qp → State → State) : Res :=
  onNte i s fun s =>
    match (s.nte i).rxq with
    | [] => s
    | p :: _ =>
      if !t p then s
      else if (s.qp i p.qp).stat != 1 then s.modNte i (fun n => { n with rxq := n.rxq.drop 1 })
      else f p (s.qp i p.qp) s

def State.rxDone (s : State) (i : Nat) : State := s.modNte i (fun n => { n with rxq := n.rxq.drop 1 })

/-- A packet is accepted: E advances; an ACK is due at the end of a message, with AckReq, and every 64 packets (R372). -/
def Qp.accept (k : Qp) (p : RxPkt) (last : Bool) : Qp :=
  let k := { k with epsn := psnAdd k.epsn 1, nakd := false, unackd := k.unackd + 1, msn := if last then psnAdd k.msn 1 else k.msn }
  if last || p.ackReq || 64 ≤ k.unackd then { k with unackd := 0, out := k.out ++ [.ack p.psn] } else k

/-- A duplicate SEND or WRITE is discarded and acknowledged again; out of sequence it brings a NAK. -/
def State.rxOff (s : State) (i : Nat) (p : RxPkt) (k : Qp) : State :=
  (s.setQp i p.qp (if k.seqTest p.psn = 1 then { k with out := k.out ++ [.ack (psnAdd k.epsn (2 ^ 24 - 1))] } else k.seqNak)).rxDone i

/-- The receive queue's slots, and the address of the RQE with a count. -/
def Qp.rqSlots (k : Qp) : Nat := 2 ^ (k.rqcfg.toNat / 2 ^ 28)
def Qp.rqAddr (k : Qp) (n : Nat) : Nat × Nat :=
  (bits k.rqcfg.toNat 19 9, (bits k.rqcfg.toNat 2 17 * 16 + n % k.rqSlots * 16) % 2 ^ 21)

/-- The next RQE for a message (R370): none posted gives RNR NAK; otherwise it is read, and `f` goes on once it is there. -/
def State.withRqe (s : State) (i : Nat) (p : RxPkt) (k : Qp) (f : Recv → State → State) : State :=
  match k.rqe with
  | none =>
    if k.rqeRd then s
    else if k.rqNext = k.rqprod then
      (s.setQp i p.qp { k with out := k.out ++ [.nak k.epsn (synRnr k.set.rnrt)] }).rxDone i
    else
      let (b, o) := k.rqAddr k.rqNext.toNat
      (s.setQp i p.qp { k with rqeRd := true }).nteRead i p.qp .rqe p.psn 128 b o 0 16
  | some d =>
    let len := fld d 8 4
    let sy := fld d 12 4
    match s.nteBuf i (fld d 0 8) len with
    | none => s.rqFail i p.qp 3
    | some (b, o) =>
      if bits sy 29 2 != 0 || (bit sy 31 && sy % 65536 = 0) || 2 ^ 21 < len then s.rqFail i p.qp 1
      else
        let (rb, ro) := k.rqAddr k.rqNext.toNat
        f { idx := k.rqNext.toNat, rblk := rb, roff := ro, blk := b, off := o, len := len, sync := sy }
          (s.setQp i p.qp { k with rqe := none, rqNext := k.rqNext + 1 })

/-- The payload of a SEND packet is placed in the last message's buffer, with class OWN. -/
def State.placeSend (s : State) (i : Nat) (p : RxPkt) : State :=
  let k := s.qp i p.qp
  match k.recvs.getLast? with
  | none => s
  | some r =>
    if r.len < r.bytes + p.data.length then (s.nakFail i p.qp p.psn synInv 0xB).rxDone i
    else
      let last : Bool := p.op == 2 || p.op == 3 || p.op == 4 || p.op == 5
      let r' := { r with bytes := r.bytes + p.data.length, op := if hasImm p.op then 1 else 0, imm := p.imm, psn := p.psn,
                         ended := last }
      let s := s.setQp i p.qp ({ k with recvs := k.recvs.dropLast ++ [r'], inSend := !last }.accept p last)
      (s.nteWrite i p.qp .recv p.psn 128 r.blk (r.off + r.bytes) 0 p.data).rxDone i

/-- INCOMING_SEND: the oldest packet is of a SEND (opcodes 0 to 5). -/
def execIncomingSend (i : Nat) (s : State) : Res :=
  rxCmd i (fun p => decide (p.op ≤ 5)) s fun p k s =>
    if k.seqTest p.psn != 0 then s.rxOff i p k
    else
      let first : Bool := p.op == 0 || p.op == 4 || p.op == 5
      if first == k.inSend || k.inWrite.isSome then (s.nakFail i p.qp p.psn synInv 0xB).rxDone i
      else if first then
        s.withRqe i p k (fun r s => (s.modQp i p.qp (fun k => { k with recvs := k.recvs ++ [r] })).placeSend i p)
      else s.placeSend i p

/-- A region and offset for a remote access (R369). -/
def Nte.region (n : Nte) (p : RxPkt) (wr : Bool) : Option InWrite :=
  let m := p.rkey % 128
  let r := lget ({} : Region) n.mrs m
  let off := p.va - r.va.toNat
  if r.ctl.getLsbD 31 && r.ctl.toNat % 2 ^ 24 == p.rkey / 256 && r.va.toNat ≤ p.va
    && off + p.len ≤ r.len.toNat && (if wr then r.ctl.getLsbD 29 else r.ctl.getLsbD 30)
  then some { mr := m, blk := bits r.loc.toNat 21 9, off := r.loc.toNat % 2 ^ 21 + off, left := p.len } else none

/-- The payload of a WRITE packet is placed through its region, with class REMOTE; the last packet with an immediate takes an
RQE. -/
def State.placeWrite (s : State) (i : Nat) (p : RxPkt) (w : InWrite) : State :=
  let k := s.qp i p.qp
  let n := p.data.length
  let last : Bool := p.op == 8 || p.op == 9 || p.op == 0xA || p.op == 0xB
  if w.left < n || (last && w.left != n) then (s.nakFail i p.qp p.psn synInv 0xB).rxDone i
  else
    let go := fun (s : State) =>
      let w' := { w with off := w.off + n, left := w.left - n, got := w.got + n }
      let s := s.modQp i p.qp (fun k => { k with inWrite := if last then none else some w' }.accept p last)
      (s.nteWrite i p.qp .place p.psn w.mr w.blk w.off 2 p.data).rxDone i
    if hasImm p.op then
      s.withRqe i p k (fun r s => go (s.modQp i p.qp (fun k => { k with recvs := k.recvs ++
        [{ r with bytes := w.got + n, op := 3, imm := p.imm, psn := p.psn, ended := true }] })))
    else go s

/-- INCOMING_WRITE: the oldest packet is of an RDMA WRITE (opcodes 6 to 0xB). -/
def execIncomingWrite (i : Nat) (s : State) : Res :=
  rxCmd i (fun p => decide (6 ≤ p.op) && decide (p.op ≤ 0xB)) s fun p k s =>
    if k.seqTest p.psn != 0 then s.rxOff i p k
    else if k.inSend || hasReth p.op == k.inWrite.isSome then (s.nakFail i p.qp p.psn synInv 0xB).rxDone i
    else match k.inWrite with
      | some w => s.placeWrite i p w
      | none =>
        if 2 ^ 21 < p.len then (s.nakFail i p.qp p.psn synInv 0xB).rxDone i
        else match (s.nte i).region p true with
          | none => (s.nakFail i p.qp p.psn synAcc 0xA).rxDone i
          | some w => s.placeWrite i p w

/-- READ responses that a queue pair has to send. -/
def Qp.reading (k : Qp) : Nat := (k.out.filter (fun r => match r with | .read _ _ _ _ _ _ => true | _ => false)).length

/-- INCOMING_READ: checked against its region and served from it; a duplicate is served again, within RDDEPTH. -/
def execIncomingRead (i : Nat) (s : State) : Res :=
  rxCmd i (fun p => p.op == 0xC) s fun p k s =>
    let dup : Bool := k.seqTest p.psn == 1
    if k.seqTest p.psn = 2 then (s.setQp i p.qp k.seqNak).rxDone i
    else if k.set.rddepth ≤ k.reading then (if dup then s.rxDone i else (s.nakFail i p.qp p.psn synInv 0xB).rxDone i)
    else if 2 ^ 21 < p.len || k.inSend || k.inWrite.isSome then (s.nakFail i p.qp p.psn synInv 0xB).rxDone i
    else match (s.nte i).region p false with
      | none => (s.nakFail i p.qp p.psn synAcc 0xA).rxDone i
      | some w =>
        let k := { k with out := k.out ++ [.read p.psn w.mr w.blk w.off p.len 0] }
        (s.setQp i p.qp (if dup then k else
          { k with epsn := psnAdd k.epsn (pktsOf p.len k.set.mtu), nakd := false, msn := psnAdd k.msn 1, unackd := 0 })).rxDone i

/-! ## Acknowledgements at the requester (R375) -/

/-- The oldest READ whose responses are not all there. -/
def Qp.openRead (k : Qp) : Option Work := k.works.find? (fun w => w.op == 4 && w.got < w.npkt)

/-- The oldest unacknowledged PSN advances to `nu`: RETRY is restored and the timer restarts, or stops with nothing
outstanding. -/
def Qp.advance (k : Qp) (nu now : Nat) : Qp :=
  let d := psnDist nu k.una
  if d = 0 || psnDist k.nextPsn k.una < d then k
  else
    let sp := if psnDist k.spsn k.una < d then nu else k.spsn
    { k with una := nu, spsn := sp, retryLeft := k.set.retry, rnrLeft := k.set.rnrretry,
             timer := if sp = nu then none else some now }

/-- An ACK of a PSN acknowledges everything up to it, but no READ whose response is missing. -/
def Qp.ackTo (k : Qp) (psn now : Nat) : Qp :=
  let nu := psnAdd psn 1
  match k.openRead with
  | some w => k.advance (if psnDist nu k.una ≤ psnDist (psnAdd w.psn w.got) k.una then nu else psnAdd w.psn w.got) now
  | none => k.advance nu now

/-- INCOMING_ACK. -/
def execIncomingAck (i : Nat) (s : State) : Res :=
  rxCmd i (fun p => p.op == 0x11 && p.syn / 32 == 0) s fun p k s =>
    (s.setQp i p.qp (if psnDist p.psn k.una < 2 ^ 23 then k.ackTo p.psn s.ticks else k)).rxDone i

/-- READ_RESPONSE: the next response packet of the oldest READ is placed in its buffer; any other is discarded. -/
def execReadResponse (i : Nat) (s : State) : Res :=
  rxCmd i (fun p => decide (0xD ≤ p.op) && decide (p.op ≤ 0x10)) s fun p k s =>
    let s := s.rxDone i
    match k.openRead with
    | none => s
    | some w =>
      if psnAdd w.psn w.got != p.psn then s
      else
        let at_ := w.got * k.set.mtu
        let d := p.data.take (w.len - at_)
        let k := { k with works := k.works.replace w { w with got := w.got + 1 } }
        (s.setQp i p.qp (k.advance (psnAdd p.psn 1) s.ticks)).nteWrite i p.qp .resp p.psn 128 w.blk (w.off + at_) 0 d

/-- The wait of an RNR timer code, in ticks (PRESUMED: the InfiniBand specification, notes/assumptions/30.md). -/
def rnrTicks (c : Nat) : Nat :=
  1000 * ([65536, 1, 2, 3, 4, 6, 8, 12, 16, 24, 32, 48, 64, 96, 128, 192, 256, 384, 512, 768, 1024, 1536, 2048, 3072, 4096, 6144,
    8192, 12288, 16384, 24576, 32768, 49152].getD (c % 32) 0)

/-- INCOMING_NAK: a Sequence Error resends from its PSN, an RNR NAK after its wait, any other fails the QP (R375). -/
def execIncomingNak (i : Nat) (s : State) : Res :=
  rxCmd i (fun p => p.op == 0x11 && p.syn / 32 != 0) s fun p k s =>
    let s := s.rxDone i
    if psnDist k.nextPsn k.una ≤ psnDist p.psn k.una then s
    else
      let k := if p.psn = k.una then k else k.ackTo (psnAdd p.psn (2 ^ 24 - 1)) s.ticks
      let back := { k with spsn := k.una, buf := k.buf.filter (·.resp) }
      if p.syn / 32 = 1 then
        if k.rnrLeft = 0 then (s.setQp i p.qp k).sqFail i p.qp 6 p.psn
        else s.setQp i p.qp { back with rnrLeft := if k.rnrLeft = 7 then 7 else k.rnrLeft - 1, timer := none,
                                        rnrAt := some (s.ticks + rnrTicks p.syn) }
      else if p.syn = synSeq then s.setQp i p.qp back
      else if p.syn = synInv then (s.setQp i p.qp k).sqFail i p.qp 9 p.psn
      else if p.syn = synAcc then (s.setQp i p.qp k).sqFail i p.qp 7 p.psn
      else if p.syn = synOp then (s.setQp i p.qp k).sqFail i p.qp 8 p.psn
      else s.setQp i p.qp k

/-! ## Rate control (R379) -/

def rMin : Nat := 40000000
def rAi : Nat := 50000000
def bInc : Nat := 10485760

/-- Target step times of the operating points in picoseconds (Table 02-1). -/
def opStep (op : Nat) : Nat := [1800, 1450, 1150, 950, 800, 730, 660, 620].getD op 800

/-- RMAX of a slice: 30 GB/s at OP4, in proportion to the island's step rate. -/
def State.rMax (s : State) (i : Nat) : Nat := 30000000000 * 800 / opStep (s.isl i).cur

/-- INCOMING_CNP. Halves round down (notes/assumptions/31.md). -/
def execIncomingCnp (i : Nat) (s : State) : Res :=
  rxCmd i (fun p => p.op == 0x81) s fun p k s =>
    (s.setQp i p.qp { k with
      rt := k.rc, rc := max (k.rc - k.rc * k.alpha / 2 ^ 33) rMin, alpha := k.alpha - k.alpha / 256 + 2 ^ 24, stage := 0,
      cnpAt := some s.ticks, tiAt := s.ticks, bytesSince := 0 }).rxDone i

/-- TALPHA: 55 µs have passed since the interval began; without a CNP in it alpha decays. -/
def execTalpha (i qp : Nat) (s : State) : Res :=
  onQp i qp s fun k s =>
    if s.ticks < k.taAt + 5500 then s
    else
      let cnp : Bool := match k.cnpAt with
        | none => false
        | some t => decide (k.taAt ≤ t)
      s.setQp i qp { k with taAt := s.ticks, alpha := if cnp then k.alpha else k.alpha - k.alpha / 256 }

/-- TINC: 55 µs or 10 MiB since the last increase or CNP; the rate rises. -/
def execTinc (i qp : Nat) (s : State) : Res :=
  onQp i qp s fun k s =>
    if s.ticks < k.tiAt + 5500 && k.bytesSince < bInc then s
    else
      let st := k.stage + 1
      let rt := if 5 < st then min (k.rt + rAi) (s.rMax i) else k.rt
      s.setQp i qp { k with stage := st, rt := rt, rc := (k.rc + rt) / 2,
                            tiAt := if k.tiAt + 5500 ≤ s.ticks then s.ticks else k.tiAt,
                            bytesSince := if bInc ≤ k.bytesSince then k.bytesSince - bInc else k.bytesSince }

/-! ## Work requests (R366 to R368) -/

def Qp.sqSlots (k : Qp) : Nat := 2 ^ (k.sqcfg.toNat / 2 ^ 28)
def Qp.sqAddr (k : Qp) : Nat × Nat :=
  (bits k.sqcfg.toNat 19 9, (bits k.sqcfg.toNat 4 15 * 64 + k.sqNext.toNat % k.sqSlots * 64) % 2 ^ 21)

/-- Is a WQE well formed (Table 15-3)? -/
def wqeOk (d : List Byte) : Bool :=
  decide (fld d 28 1 ≤ 4) && decide (fld d 29 1 ≤ 7) && fld d 30 2 == 0 && bits (fld d 32 4) 29 3 == 0 && fld d 36 20 == 0
    && decide (fld d 16 4 ≤ 2 ^ 21) && !(bit (fld d 29 1) 0 && fld d 32 2 == 0)

/-- The slice reads the WQE of the next work request, and with it starts the request where its OPCODE is `op`; a bad WQE
fails the QP whichever it names. FENCE waits for every earlier READ. -/
def workReq (op i q : Nat) (s : State) : Res :=
  onQp i q s fun k s =>
    if k.sqNext = k.sqprod || s.suspected true (ppBlk i) q then s
    else match k.wqe with
      | none =>
        if k.wqeRd then s
        else
          let (b, o) := k.sqAddr
          (s.setQp i q { k with wqeRd := true }).nteRead i q .wqe k.nextPsn 128 b o 0 64
      | some d =>
        let user := BitVec.ofNat 64 (fld d 56 8)
        let len := fld d 16 4
        if !wqeOk d then s.qpFail i q 1 k.sqNext.toNat user
        else if fld d 28 1 != op then s
        else match s.nteBuf i (fld d 0 8) len with
          | none => s.qpFail i q 3 k.sqNext.toNat user
          | some (b, o) =>
            if bit (fld d 29 1) 1 && k.works.any (fun w => w.op == 4) then s
            else
              let n := pktsOf len k.set.mtu
              let sy := fld d 32 4
              s.setQp i q { k with
                wqe := none, sqNext := k.sqNext + 1, nextPsn := psnAdd k.nextPsn n,
                works := k.works ++ [{
                  idx := k.sqNext.toNat, op := op, blk := b, off := o, raddr := fld d 8 8, len := len, rkey := fld d 20 4, imm := fld d 24 4, signal := bit (fld d 29 1) 0, solicited := bit (fld d 29 1) 2,
                  syncid := bits sy 16 13, inc := sy % 65536, user := user, psn := k.nextPsn, npkt := n }] }

/-- SEND. -/
def execSend (i qp : Nat) (s : State) : Res := workReq 0 i qp s
/-- SEND_IMM. -/
def execSendImm (i qp : Nat) (s : State) : Res := workReq 1 i qp s
/-- WRITE. -/
def execWrite (i qp : Nat) (s : State) : Res := workReq 2 i qp s
/-- WRITE_IMM. -/
def execWriteImm (i qp : Nat) (s : State) : Res := workReq 3 i qp s
/-- READ. -/
def execRead (i qp : Nat) (s : State) : Res := workReq 4 i qp s

/-! ## Sending (R372, R375, R379) -/

/-- No placement of a queue pair up to a PSN is outstanding (R372). -/
def Nte.placed (n : Nte) (q psn : Nat) : Bool :=
  n.accs.all (fun a => a.qp != q || !(a.use == .place || a.use == .recv) || psnDist psn a.psn ≥ 2 ^ 23)

/-- What a queue pair would send next: a CNP, a response, or a request packet of a work. -/
inductive NextPkt
  | cnp
  | resp (r : Resp)
  | req (w : Work)
deriving DecidableEq, Repr

/-- READs sent and not complete. -/
def Qp.readsOut (k : Qp) : Nat :=
  (k.works.filter (fun w => w.op == 4 && w.got < w.npkt && psnDist w.psn k.una < psnDist k.spsn k.una)).length

def Qp.next (k : Qp) (n : Nte) (q : Nat) : Option NextPkt :=
  if k.cnpDue then some .cnp
  else
    let req : Option NextPkt :=
      if k.stat != 1 || k.rnrAt.isSome || k.spsn = k.nextPsn || 4096 ≤ psnDist k.spsn k.una then none
      else match k.works.find? (fun w => psnDist k.spsn w.psn < w.npkt) with
        | some w => if w.op = 4 && k.set.rddepth ≤ k.readsOut then none else some (.req w)
        | none => none
    match k.out with
    | .ack p :: _ => if n.placed q p then some (.resp (.ack p)) else req
    | .nak p x :: _ => if n.placed q (psnAdd p (2 ^ 24 - 1)) then some (.resp (.nak p x)) else req
    | r :: _ => some (.resp r)
    | [] => req

/-- The instant, in 2^-20 ticks, before which a sender of `len` payload bytes at `rate` bytes per second sends nothing more
(R379; notes/assumptions/31.md). -/
def paceAfter (at_ now rate len : Nat) : Nat :=
  if len = 0 || rate = 0 then at_ else max at_ (now * 2 ^ 20) + (len * 10 ^ 8 * 2 ^ 20 + rate - 1) / rate

/-- Does the queue pair's rate allow its next packet: requests alone are paced (R379)? -/
def Qp.paced (k : Qp) (now : Nat) (x : NextPkt) : Bool :=
  match x with
  | .req _ => decide (k.paceAt ≤ now * 2 ^ 20)
  | _ => true

/-- Queue pairs from the round-robin pointer on that no search holds and whose rate allows a packet, each with what it sends
next. -/
def Nte.turns (n : Nte) (now : Nat) (held : Nat → Bool) : List (Nat × NextPkt) :=
  let qs := (n.qps.map (·.1)).filter (fun q => !held q)
  (qs.filter (fun q => n.last < q) ++ qs.filter (fun q => q ≤ n.last)).filterMap (fun q =>
    let k := lget ({} : Qp) n.qps q
    ((k.next n q).filter (k.paced now)).map (fun x => (q, x)))

/-- Payload of a packet: block, offset, bytes; none where it carries none. -/
def payload (k : Qp) : NextPkt → Nat × Nat × Nat
  | .cnp => (0, 0, 0)
  | .resp (.read _ _ b o len sent) => (b, o + sent * k.set.mtu, min k.set.mtu (len - sent * k.set.mtu))
  | .resp _ => (0, 0, 0)
  | .req w =>
    if w.op = 4 then (0, 0, 0)
    else let d := psnDist k.spsn w.psn * k.set.mtu; (w.blk, w.off + d, min k.set.mtu (w.len - d))

/-- PSN of a packet. -/
def pktPsn (k : Qp) : NextPkt → Nat
  | .cnp => 0
  | .resp (.read p _ _ _ _ sent) => psnAdd p sent
  | .resp (.ack p) => p
  | .resp (.nak p _) => p
  | .req _ => k.spsn

def isResp : NextPkt → Bool
  | .req _ => false
  | _ => true

/-- Is the payload of a packet at hand? -/
def pktReady (k : Qp) (x : NextPkt) : Bool :=
  (payload k x).2.2 == 0 || match k.buf with
    | some b => b.resp == isResp x && b.psn == pktPsn k x && b.wait.isEmpty
    | none => false

def aeth (syn msn : Nat) : List Byte := beBytes 1 syn ++ beBytes 3 msn

/-- Transport bytes of a packet with its payload `d`. -/
def pktBytes (k : Qp) (x : NextPkt) (d : List Byte) : List Byte :=
  let pad := (4 - d.length % 4) % 4
  let body := d ++ List.replicate pad 0
  let p := pktPsn k x
  let qpn := k.set.qpn
  match x with
  | .cnp => bth 0x81 false 0 qpn false 0 ++ List.replicate 16 0
  | .resp (.ack _) => bth 0x11 false 0 qpn false p ++ aeth 0x1F k.msn
  | .resp (.nak _ syn) => bth 0x11 false 0 qpn false p ++ aeth syn k.msn
  | .resp (.read _ _ _ _ len sent) =>
    let n := pktsOf len k.set.mtu
    let op := if n = 1 then 0x10 else if sent = 0 then 0xD else if sent + 1 = n then 0xF else 0xE
    bth op false pad qpn false p ++ (if op = 0xE then [] else aeth 0x1F k.msn) ++ body
  | .req w =>
    let j := psnDist p w.psn
    let first : Bool := j == 0
    let last : Bool := j + 1 == w.npkt
    let ar : Bool := last || (j + 1) % 64 == 0
    let reth := fun (va len : Nat) => beBytes 8 va ++ beBytes 4 w.rkey ++ beBytes 4 len
    let se : Bool := w.solicited && last
    if w.op = 4 then
      bth 0xC w.solicited 0 qpn true p ++ reth (w.raddr + j * k.set.mtu) (w.len - j * k.set.mtu)
    else
      let im : Bool := (w.op == 1 || w.op == 3) && last
      let base := if 2 ≤ w.op then 6 else 0
      let op := base + (if first && last then 4 + boolNat im else if first then 0 else if last then 2 + boolNat im else 1)
      bth op se pad qpn ar p ++ (if 2 ≤ w.op && first then reth w.raddr w.len else [])
        ++ (if im then beBytes 4 w.imm else []) ++ body

/-- The queue pair after its packet has left. -/
def Qp.sent (k : Qp) (x : NextPkt) (n now : Nat) : Qp :=
  match x with
  | .cnp => { k with cnpDue := false }
  | .resp (.read p m b o len sent) =>
    { k with buf := none,
             out := if sent + 1 = pktsOf len k.set.mtu then k.out.drop 1 else Resp.read p m b o len (sent + 1) :: k.out.drop 1 }
  | .resp _ => { k with out := k.out.drop 1 }
  | .req w =>
    { k with buf := if n = 0 then k.buf else none, timer := some now, bytesSince := k.bytesSince + n,
             spsn := if w.op = 4 then psnAdd w.psn w.npkt else psnAdd k.spsn 1 }

/-- The packet of a queue pair leaves on virtual channel 2. -/
def State.nteEmit (s : State) (i q : Nat) (x : NextPkt) : State :=
  let k := s.qp i q
  let (_, _, n) := payload k x
  let d := if n = 0 then [] else (List.range n).map (fun j => lget 0 ((k.buf.map (·.data)).getD []) j)
  let f := frameOf (s.nte i) k.set (match x with | .req _ => 2 | .resp (.read _ _ _ _ _ _) => 2 | _ => 0) (pktBytes k x d)
  let k' := k.sent x n s.ticks
  let k' := match x with
    | .req _ => { k' with paceAt := paceAfter k.paceAt s.ticks k.rc n }
    | _ => k'
  ((s.setQp i q k').modNte i (fun m => { m with last := q, paceAt := paceAfter m.paceAt s.ticks (s.rMax i) n })).sendMsg i 2 f

/-- The payload of a packet is read: a READ source with class REMOTE, a send buffer with class OWN. -/
def State.nteLoad (s : State) (i q : Nat) (x : NextPkt) : State :=
  let k := s.qp i q
  let (b, o, n) := payload k x
  let p := pktPsn k x
  let mr := match x with
    | .resp (.read _ m _ _ _ _) => m
    | _ => 128
  let old := (s.nte i).accs.map (·.tag)
  let s := s.nteRead i q (if isResp x then .readSrc else .src) p mr b o (if isResp x then 2 else 0) n
  let tags := ((s.nte i).accs.map (·.tag)).filter (fun t => !(old.contains t))
  s.modQp i q (fun k => { k with buf := some { resp := isResp x, psn := p, wait := tags } })

/-- NTE_PACKET_SEND: the first queue pair in turn whose packet is ready sends it; where none is, the first whose payload is
not yet being read starts to read it. The slice's own rate holds every packet (R379). -/
def execNtePacketSend (i : Nat) (s : State) : Res :=
  onNte i s fun s =>
    if !s.ppUp i || s.ticks * 2 ^ 20 < (s.nte i).paceAt then s
    else
      let n := s.nte i
      match (n.turns s.ticks (s.suspHeld true (ppBlk i))).find? (fun e => pktReady (lget ({} : Qp) n.qps e.1) e.2) with
      | some (q, x) => s.nteEmit i q x
      | none =>
        match (n.turns s.ticks (s.suspHeld true (ppBlk i))).find? (fun e =>
          let k := lget ({} : Qp) n.qps e.1
          match k.buf with
          | none => true
          | some b => b.wait.isEmpty || !(b.resp == isResp e.2 && b.psn == pktPsn k e.2)) with
        | some (q, x) =>
          (s.modNte i (fun n => { n with accs := n.accs.map (fun a =>
            if a.qp = q && (a.use == .src || a.use == .readSrc) then { a with use := .orphan } else a) })).nteLoad i q x
        | none => s

/-! ## Timers (R375) -/

/-- LOCAL_ACK_TIMEOUT: 4.096 µs × 2^t without progress. -/
def execLocalAckTimeout (i qp : Nat) (s : State) : Res :=
  onQp i qp s fun k s =>
    match k.timer with
    | none => s
    | some t =>
      if k.set.timeout = 0 || s.ticks < t + (4096 * 2 ^ k.set.timeout + 9) / 10 then s
      else if k.retryLeft = 0 then s.sqFail i qp 5 k.una
      else s.setQp i qp { k with retryLeft := k.retryLeft - 1, spsn := k.una, timer := some s.ticks,
                                 buf := k.buf.filter (·.resp) }

/-- RNR_TIMER: the peer's wait is over. -/
def execRnrTimer (i qp : Nat) (s : State) : Res :=
  onQp i qp s fun k s =>
    match k.rnrAt with
    | none => s
    | some t => if s.ticks < t then s else s.setQp i qp { k with rnrAt := none, spsn := k.una }

/-! ## Completions (R374) -/

/-- Is a work request complete? -/
def Nte.workDone (n : Nte) (q : Nat) (k : Qp) (w : Work) : Bool :=
  if w.op = 4 then
    w.got == w.npkt && n.accs.all (fun a => !(a.qp == q && a.use == .resp && psnDist a.psn w.psn < w.npkt))
  else
    let d := psnDist k.una w.psn
    decide (w.npkt ≤ d) && decide (d < 2 ^ 23)

/-- An ADD of INC to SYNCID through the target's network interface; an object outside the partition is no place for it. -/
def State.nteAdd (s : State) (i q : Nat) (use : NteUse) (psn id inc : Nat) : State :=
  s.nteAcc i q use psn 0 128 (id / 16) 2 (id % 16 * 16 + 4) 0 .wr 4 (toBytes 4 inc)

/-- WORK_REQUEST_COMPLETE: the oldest work request, once complete, signals SYNCID and advances CONS. -/
def execWorkRequestComplete (i qp : Nat) (s : State) : Res :=
  onQp i qp s fun k s =>
    match k.works with
    | [] => s
    | w :: ws =>
      if w.adding || !(s.nte i).workDone qp k w then s
      else if !w.signal then s.setQp i qp { k with works := ws, sqcons := k.sqcons + 1 }
      else if !s.ownObj (ppBlk i) w.syncid then s.qpFail i qp 4 w.idx w.user
      else (s.setQp i qp { k with works := { w with adding := true } :: ws }).nteAdd i qp .sqAdd w.psn w.syncid w.inc

/-- The completion record of a message (Table 15-4). -/
def Recv.record (r : Recv) : List Byte :=
  toBytes 4 r.bytes ++ toBytes 4 (if r.op = 0 then 0 else r.imm) ++ toBytes 1 r.op ++ toBytes 7 0

/-- RESPONDER_COMPLETION: the oldest message's completion goes on: its record, then the ADD, then CONS. -/
def execResponderCompletion (i qp : Nat) (s : State) : Res :=
  onQp i qp s fun k s =>
    match k.recvs with
    | [] => s
    | r :: rs =>
      if !r.ended || r.stage = 2 then s
      else if r.stage = 0 then
        (s.setQp i qp { k with recvs := { r with stage := 1 } :: rs }).nteWrite i qp .record r.psn 128 r.rblk r.roff 0 r.record
      else if !(s.nte i).placed qp r.psn || (s.nte i).accs.any (fun a => a.qp == qp && a.use == .record) then s
      else if !bit r.sync 31 then s.setQp i qp { k with recvs := rs, rqcons := k.rqcons + 1 }
      else if !s.ownObj (ppBlk i) (bits r.sync 16 13) then s.rqFail i qp 4
      else (s.setQp i qp { k with recvs := { r with stage := 2 } :: rs }).nteAdd i qp .rqAdd r.psn (bits r.sync 16 13) (r.sync % 65536)

/-! ## Registers (R366, R373, R380) -/

/-- Offsets of the queue pair and region registers. -/
def isQpOff (o r : Nat) : Bool := decide (0x4000 ≤ o) && decide (o < 0x8000) && o % 32 == r
def isMrOff (o r : Nat) : Bool := decide (0x3000 ≤ o) && decide (o < 0x4000) && o % 32 == r
def qpOf (o : Nat) : Nat := (o - 0x4000) / 32
def mrOf (o : Nat) : Nat := (o - 0x3000) / 32

/-- Is a PROD value in order (R366)? -/
def prodOk (new old cons : BitVec 16) (slots : Nat) : Bool :=
  decide ((new - cons).toNat ≤ slots) && decide ((old - cons).toNat ≤ (new - cons).toNat)

/-- SQIDX_PROD_WRITE: the oldest register write at the slice is of QPn_SQIDX. -/
def execSqidxProdWrite (i : Nat) (s : State) : Res :=
  onNte i s fun s =>
    match s.popCtl (ppBlk i) (fun a => a.kind == .wr && isQpOff a.off 8) with
    | none => s
    | some (a, s) =>
      let q := qpOf a.off
      let k := s.qp i q
      let new := BitVec.ofNat 16 a.val
      if q < (s.nte i).qalloc && prodOk new k.sqprod k.sqcons k.sqSlots then
        (s.setQp i q { k with sqprod := new }).reply (ppBlk i) a 0 []
      else s.reply (ppBlk i) a 6 []

/-- RQIDX_PROD_WRITE. -/
def execRqidxProdWrite (i : Nat) (s : State) : Res :=
  onNte i s fun s =>
    match s.popCtl (ppBlk i) (fun a => a.kind == .wr && isQpOff a.off 12) with
    | none => s
    | some (a, s) =>
      let q := qpOf a.off
      let k := s.qp i q
      let new := BitVec.ofNat 16 a.val
      if q < (s.nte i).qalloc && prodOk new k.rqprod k.rqcons k.rqSlots then
        (s.setQp i q { k with rqprod := new }).reply (ppBlk i) a 0 []
      else s.reply (ppBlk i) a 6 []

def State.modMr (s : State) (i n : Nat) (f : Region → Region) : State :=
  s.modNte i (fun k => { k with mrs := lset k.mrs n (f (lget {} k.mrs n)) })

/-- Writable bits of MRn_CTL. -/
def mrCtlMask : Nat := 0xE0FFFFFF

/-- MR_VALID_SET: refused unless the region lies in a block store of the partition and allows something (R373). -/
def execMrValidSet (i : Nat) (s : State) : Res :=
  onNte i s fun s =>
    match s.popCtl (ppBlk i) (fun a => a.kind == .wr && isMrOff a.off 0 && bit a.val 31) with
    | none => s
    | some (a, s) =>
      let n := mrOf a.off
      let r := lget ({} : Region) (s.nte i).mrs n
      let b := bits r.loc.toNat 21 9
      let ok : Bool := decide (n < (s.nte i).malloc) && decide (1 ≤ r.len.toNat)
        && decide (r.loc.toNat % 2 ^ 21 + r.len.toNat ≤ 2 ^ 21) && decide (b < nBlocks) && s.samePart (ppBlk i) b
        && (bit a.val 30 || bit a.val 29)
      if ok then (s.modMr i n (fun r => { r with ctl := b32 (a.val &&& mrCtlMask) })).reply (ppBlk i) a 0 []
      else s.reply (ppBlk i) a 6 []

/-- MR_VALID_CLEAR: the region closes, and the write is acknowledged after the placements admitted through it. -/
def execMrValidClear (i : Nat) (s : State) : Res :=
  onNte i s fun s =>
    match s.popCtl (ppBlk i) (fun a => a.kind == .wr && isMrOff a.off 0 && !bit a.val 31) with
    | none => s
    | some (a, s) =>
      let n := mrOf a.off
      if (s.nte i).malloc ≤ n then s.reply (ppBlk i) a 6 []
      else
        let s := s.modMr i n (fun r => { r with ctl := b32 (a.val &&& mrCtlMask) })
        let tags := ((s.nte i).accs.filter (fun x => x.mr == n && x.use == .place)).map (·.tag)
        (s.modNte i (fun k => { k with closing := k.closing ++ [(a, tags)] })).nteClosed i

/-- Any other NTE register written by a program: SQCFG, RQCFG and ERR only in RESET, LOC, LEN and VABASE only while the region
is not VALID, of an allotted entry; whether the write is accepted, and the state (R365, R373, Table 15-8). -/
def State.nteRegWrite (s : State) (i o v : Nat) : Bool × State :=
  if 0x4000 ≤ o then
    let q := qpOf o
    let k := s.qp i q
    if (s.nte i).qalloc ≤ q || k.stat != 0 then (false, s)
    else if o % 32 = 0 then (if 10 < v / 2 ^ 28 then (false, s) else (true, s.setQp i q { k with sqcfg := b32 (v / 16 * 16) }))
    else if o % 32 = 4 then (if 12 < v / 2 ^ 28 then (false, s) else (true, s.setQp i q { k with rqcfg := b32 (v / 4 * 4) }))
    else if o % 32 = 16 then (true, s.setQp i q { k with err := b32 (v &&& 0x80001FFF) })
    else (false, s)
  else
    let n := mrOf o
    let r := lget ({} : Region) (s.nte i).mrs n
    if (s.nte i).malloc ≤ n || r.ctl.getLsbD 31 then (false, s)
    else if o % 32 = 4 then (true, s.modMr i n (fun r => { r with loc := b32 (v &&& 0x3FFFFFFF) }))
    else if o % 32 = 8 then (true, s.modMr i n (fun r => { r with len := b32 (v &&& 0x3FFFFF) }))
    else if o % 32 = 16 then (true, s.modMr i n (fun r => { r with va := BitVec.ofNat 64 (r.va.toNat / 2 ^ 32 * 2 ^ 32 + v) }))
    else if o % 32 = 20 then (true, s.modMr i n (fun r => { r with va := BitVec.ofNat 64 (v * 2 ^ 32 + r.va.toNat % 2 ^ 32) }))
    else (false, s)

end Sys2Proof.Machine
end

