-- ==== Sys2Proof/Machine/Signals.lean ====
section
/-!
DEFINITION. Host signals and doorbells (R195 to R197), the clear of an island (R199, R200, R206 to R208, R378) and parking
(R201 to R203).
-/

namespace Sys2Proof.Machine

/-! ## Host signals -/

/-- Is a host signal message well formed (Table 07-5)? -/
def sigOk (m : List Byte) : Bool :=
  m.length == 32 && fld m 0 1 == 1 && decide (fld m 1 1 ≤ 2) && decide (fld m 4 2 < 5120) && decide (fld m 7 1 ≤ 1)
    && decide (fld m 8 4 < 2 ^ 31) && fld m 12 20 == 0

/-- A signal that fails: its object word and time are free values (notes/assumptions/1.md). -/
def State.sigFail (s : State) (pp : Nat) (m : List Byte) (status : Nat) : State :=
  let (v, s) := s.draw
  let (t, s) := s.draw
  s.sendMsg pp 1 (sigReply m status (v.toNat % 2 ^ 32) t)

/-- May the message's sender signal its object at all (R196, check 2)? Class 1 of Table 06-7 is HOST; 2 and 3 are REMOTE
and FOREIGN. -/
def State.sigAllowed (s : State) (pp part obj : Nat) (tenant : BitVec 16) (cls : Nat) : Bool :=
  decide (pp < 10) && decide (part < 10) && (s.isl pp).part == part && tenant == (s.isl pp).own.setWidth 16
    && decide (cls < 2) && s.partOfBlk (obj / 16) == part

/-- A host signal: checks 1 and 2 of R196 at the packet port, then the way to the target block: across the mesh at level 3,
unless the target is the port's own block (R196, R309, R317). -/
def State.hostSignal (s : State) (pp : Nat) (tenant : BitVec 16) (cls : Nat) (m : List Byte) : State :=
  let obj := fld m 4 2
  let part := fld m 6 1
  let x : Signal := { port := pp, msg := m }
  if !sigOk m then s.sigFail pp m stBadParam
  else if !s.sigAllowed pp part obj tenant cls then
    (s.logEvent 4 pp 0x42 part [tenant.toNat, cls, obj]).sigFail pp m stDenied
  else if obj / 16 = ppBlk pp then s.sigArrive (ppBlk pp) x
  else s.ni (ppBlk pp) { cls := 2, level := 3, nfl := 0, dst := obj / 16, src := ppBlk pp, sport := 256, pay := .signal x }

/-- The oldest message of the signals channel is taken where its OP is `op`; a message with no OP of Table 07-5 is taken by
any of the three. -/
def hostSig (op pp : Nat) (tenant : BitVec 16) (cls : Nat) (s : State) : Res :=
  onPp pp s fun s =>
    match s.popMsg pp 1 (fun m => fld m 1 1 = op || !sigOk m) with
    | none => s
    | some (m, s) => s.hostSignal pp tenant cls m

/-- HOST_SIGNAL_ADD. The hub verifies the tenant tag and the class of the sender. -/
def execHostSignalAdd (pp : Nat) (tenant : BitVec 16) (cls : Nat) (s : State) : Res := hostSig 0 pp tenant cls s
/-- HOST_SIGNAL_SET. -/
def execHostSignalSet (pp : Nat) (tenant : BitVec 16) (cls : Nat) (s : State) : Res := hostSig 1 pp tenant cls s
/-- HOST_SIGNAL_READ. -/
def execHostSignalRead (pp : Nat) (tenant : BitVec 16) (cls : Nat) (s : State) : Res := hostSig 2 pp tenant cls s

/-! ## Doorbells (R197) -/

/-- A doorbell with no port is refused and logged. -/
def State.bellDrop (s : State) (b : Nat) (d : Doorbell) (port : Nat) : State :=
  (if nBlocks ≤ d.srcBlk then s.logEvent 0 0 0xB d.part [d.srcCob, d.payload.toNat, port]
   else s.logBlk d.srcBlk 0xB [d.srcCob, d.payload.toNat, port]).bellAnswer b d 6

/-- DOORBELL: a DBELL store at block `b` sends its doorbell to the island's own packet port, or to the partition's lowest one
in service. -/
def execDoorbell (b : Nat) (s : State) : Res :=
  onBlk b s fun s =>
    match s.popCtl b (fun a => a.writes 0x1510) with
    | none => s
    | some (a, s) =>
      let p := s.partOfBlk b
      let d : Doorbell := { srcBlk := a.sblk, srcCob := a.sport, tag := a.tag, part := p, payload := BitVec.ofNat 64 a.val,
                            time := s.pktime, level := a.level }
      match (if s.ppUp (islOfBlk b) then some (islOfBlk b) else s.partPort p) with
      | none => s.bellDrop b d 0xFF
      | some i =>
        if ppBlk i = b then s.modBlk b (fun k => { k with bellIn := k.bellIn ++ [(i, d)] })
        else s.ni b { cls := 2, level := a.level, nfl := 0, dst := ppBlk i, src := b, sport := a.sport, pay := .doorbell i d }

/-- DOORBELL_QUEUED: the oldest doorbell at the attachment block enters the port's queue of 64 and its store is
acknowledged; where the port has retired it is refused. -/
def execDoorbellQueued (pp : Nat) (s : State) : Res :=
  onPp pp s fun s =>
    let b := ppBlk pp
    match (s.blk b).bellIn with
    | [] => s
    | (p, d) :: rest =>
      if 10 ≤ pp || p != pp then s
      else if !s.ppUp pp then (s.modBlk b (fun k => { k with bellIn := rest })).bellDrop b d pp
      else if 64 ≤ (s.port (ppPort pp)).bells.length then s
      else
        (((s.modBlk b (fun k => { k with bellIn := rest })).modPort (ppPort pp) (fun q => { q with bells := q.bells ++ [d] }))).bellAnswer
          b d 0

/-- A doorbell message (Table 07-6). -/
def bellMsg (d : Doorbell) (seq : BitVec 16) : List Byte :=
  [3] ++ toBytes 1 d.part ++ toBytes 2 seq.toNat ++ toBytes 2 d.srcBlk ++ toBytes 2 d.srcCob ++ toBytes 8 0
    ++ toBytes 8 d.payload.toNat ++ toBytes 8 d.time.toNat

/-- DOORBELL_SEND: hub credit for a header and one flit on the signals channel, beyond the messages already there, lets the
oldest doorbell leave. -/
def execDoorbellSend (pp : Nat) (s : State) : Res :=
  onPp pp s fun s =>
    let q := s.port (ppPort pp)
    match q.bells with
    | [] => s
    | d :: rest =>
      if q.st != 2 || lget 0 q.cred 1 < 2 * ((lget [] q.vcq 1).length + 1) then s
      else (s.setPort (ppPort pp) { q with bells := rest, bellSeq := q.bellSeq + 1 }).sendMsg pp 1 (bellMsg d q.bellSeq)

/-! ## The clear (Table 07-7) -/

/-- A block's registers after its part of the clear: BARCFG, BLKMAP, PARTRECT, the watchdog, seam and scrub registers and the
error counters stay (R200, R326, R470). -/
def Block.clear (k : Block) : Block :=
  { k with
    nocpri := 0xAA#32, winCtl := [], winBase := [], winLimit := [], winSrc := [], winAlloc := 0, wvaddr := 0, wvstat := 0,
    nq := 0, nqNew := 0, cacheBusy := false, lines := [], misses := [], cwait := [], cacheAdd := none, bankq := [], waitq := [], jobs := [], bg := [], ext := [],
    starved := [], ctlIn := [], syncIn := [], sigs := [], syncN := 0, wdAcks := [], watchIn := [], remoteIn := [], closing := [], sync := [],
    rwatch := [], lwatch := [], wakes := [], fewatch := [], gen := false, early := 0, count := 0, childArr := [],
    barUp := false, sigperm := 0, dmaAlloc := 0, chans := [], dmaLast := 0,
    dmaGone := k.dmaGone.filter (fun t => !k.dmaAns.any (fun a => a.tag == t)), dmaAns := [], dmaErrs := [], engAns := [],
    gone := k.gone ++ k.rlyTags.map (fun e => (258, e.1)), rlyTags := [],
    bellIn := [], portIn := [] }

/-- A cobble after the clear: the launch state of R109 and R137 and the reset values of the CSRs. Its identity (COBID) and its
part in the context end; the tags of abandoned requests stay out of use (R445). -/
def Cobble.clear (k : Cobble) : Cobble := { goneTags := k.goneTags }

/-- A slot after the clear (R208, R226, R281): its requested mode and LMB stay. -/
def Slot.clear (k : Slot) : Slot := { reqPz := k.reqPz, active := k.active, lmb := k.lmb }

/-- Block of a row's number. -/
def blkOfRow (r : Nat) : Nat := blkOfFlat (if r < bsBase / 4 then r * 4 else bsBase + (r - bsBase / 4) * 8)

/-- The memories of the blocks that satisfy a test read 0, empty, with fresh check bits. -/
def State.clearMem (s : State) (t : Nat → Bool) : State :=
  { s with
    mem := lfilter (fun a => !t (blkOfFlat a)) s.mem, fe := lfilter (fun w => !t (blkOfFlat (w * 4))) s.fe,
    psn := lfilter (fun r => !t (blkOfRow r)) s.psn, upset := lfilter (fun r => !t (blkOfRow r)) s.upset,
    corr := s.corr.filter (fun a => !t (blkOfFlat a)), poisonDue := s.poisonDue.filter (fun a => !t (blkOfFlat a)) }

/-- The part of Table 07-7 of the blocks that satisfy a test: registers, cobbles and memories. -/
def State.clearBlks (s : State) (t : Nat → Bool) : State :=
  let u := s.clearMem t
  { u with
    blks := u.blks.map (fun (e : Nat × Block) => if t e.1 then (e.1, e.2.clear) else e),
    cobs := u.cobs.map (fun (e : Nat × Cobble) => if t (blkOf e.1) then (e.1, e.2.clear) else e) }

/-- The NTE slice after the clear (R378): QPs in RESET, regions invalid, its registers at their reset values. -/
def Nte.clear (k : Nte) : Nte :=
  { mac := k.mac, vlan := k.vlan, pcp := k.pcp, ip4 := k.ip4, ip6 := k.ip6 }

def slotIsl (k : Nat) : Nat := islOfBlk (blkOfSlot k 0)

/-- The whole clear of an island, but for its report. -/
def State.clearIsl (s : State) (i : Nat) : State :=
  let s := s.clearBlks (fun b => islOfBlk b == i)
  let s := { s with slots := s.slots.map (fun (e : Nat × Slot) => if slotIsl e.1 == i then (e.1, e.2.clear) else e) }
  s.modIsl i (fun k => { k with sigs := [], nte := k.nte.clear, cleared := true })

/-- Every unfenced block of an island is fenced for a reset, as R199 has it before a clear order. -/
def State.islFenced (s : State) (i : Nat) : Bool :=
  (List.range nBlocks).all (fun b => islOfBlk b != i || (s.blk b).fence || (s.blk b).rstFence)

/-- ISLAND_CLEAR: a clear order at the control stop of an island whose blocks are fenced runs. -/
def execIslandClear (i : Nat) (s : State) : Res :=
  onIsl i s fun s =>
    if (s.isl i).ordered && s.islFenced i then (s.clearIsl i).modIsl i (fun k => { k with ordered := false }) else s

/-- The control cobble of a slot shows its mode: PZ and PLMBASE. -/
def State.showMode (s : State) (k : Nat) : State :=
  let q := lget ({} : Slot) s.slots k
  if q.active then s.modCob (ctlCobble k) (fun c => { c with pz := true, plmbase := BitVec.ofNat 64 (q.lmb * 1024) })
  else if (s.cob (ctlCobble k)).pz then s.modCob (ctlCobble k) (fun c => { c with pz := false, plmbase := 0 }) else s

/-- A slot takes its recorded mode, piazza mode only where it may fuse (R31, R206, R207); the control cobble of a piazza shows PZ and PLMBASE. -/
def State.takeMode (s : State) (k : Nat) : State :=
  let q := lget ({} : Slot) s.slots k
  let pz := q.reqPz && s.fusable k
  (s.modSlot k (fun q => { q with active := pz })).showMode k

/-- The report of a cleared island applies the recorded slot modes. -/
def State.reportIsl (s : State) (i : Nat) : State :=
  ((List.range 20).filter (fun k => slotIsl k == i)).foldl State.takeMode (s.modIsl i (fun k => { k with cleared := false }))

/-- ISLAND_REPORTS_CLEAR: step 6,144 of the clear. -/
def execIslandReportsClear (i : Nat) (s : State) : Res :=
  onIsl i s fun s => if (s.isl i).cleared then s.reportIsl i else s

/-! ## Parking (R201, R202) -/

/-- PARK: an island all-waiting for THR consecutive ticks moves to PARKOP while PARKEN = 1. -/
def execPark (i : Nat) (s : State) : Res :=
  onIsl i s fun s =>
    let k := s.isl i
    if k.waitctl.getLsbD 31 && !k.parked && decide (k.waitctl.toNat % 2 ^ 24 ≤ k.waitRun) then
      (s.setIsl i { k with parked := true, quiet := s.ticks }).opMove i
    else s

/-- Writable bits of WAITCTL. -/
def waitctlMask : W32 := 0x87FFFFFF#32

/-- A write of WAITCTL: clearing PARKEN while parked restores the granted operating point. -/
def State.setWaitctl (s : State) (i : Nat) (v : W32) : State :=
  let s := s.modIsl i (fun k =>
    { k with waitctl := v &&& waitctlMask, parked := k.parked && v.getLsbD 31 })
  s.opMove i

/-- WAITCTL_WRITE: a write by firmware. -/
def execWaitctlWrite (i : Nat) (value : BitVec 32) (s : State) : Res := onIsl i s fun s => s.setWaitctl i value

end Sys2Proof.Machine
end

