-- ==== Sys2Proof/Machine/RegWrite.lean ====
section
/-!
DEFINITION. Writes of registers that have no row of their own, reads of RC registers, the lock, and the service ring that
carries the management core's writes and clear orders (R13, R21, R28, R95, R171, R292, R406 to R408, R412; Tables 00-7, 01-2, 06-5 to 06-7, 11-7, 13-6, 15-7, 17-1 to 17-3, 19-11, 20-4, 21-5, 22-3).
-/

namespace Sys2Proof.Machine

/-- A write of a locked register (R13, R406): no effect, a security record, LOCKVIOL. -/
def State.lockViolate (s : State) (kind id part reg val src : Nat) : State :=
  let n := satInc s.aon.lockviol
  ((s.satLog 0 0 2 s.aon.lockviol n).modAon (fun a => { a with lockviol := n })).logEvent kind id 0x40 part [reg, val, src]

def State.locked (s : State) : Bool := s.aon.bootph == 2#2

/-! ## A program's write of its block's registers -/

/-- Window registers other than an opening or closing WINn_CTL write (R171, R172). -/
def State.winWrite (s : State) (b o v : Nat) : Bool × State :=
  let k := s.blk b
  let n := (o - 0x1000) / 16
  let old := lget 0 k.winCtl n
  if k.winAlloc ≤ n then (false, s)
  else if o % 16 = 0 then
    if winOpen old then (b32 (v &&& winCtlMask) == old, s)
    else (true, s.setBlk b { k with winCtl := cset 0 k.winCtl n (b32 (v &&& winCtlMask)) })
  else if winOpen old then (false, s)
  else if o % 16 = 4 then (true, s.setBlk b { k with winBase := cset 0 k.winBase n (b32 (v % 2 ^ 21)) })
  else if o % 16 = 8 then (true, s.setBlk b { k with winLimit := cset 0 k.winLimit n (b32 (v % 2 ^ 21)) })
  else (true, s.setBlk b { k with winSrc := cset 0 k.winSrc n (b32 (v &&& 0x8000003F)) })

/-- DMA channel registers: CFG and ERR of an idle channel below ALLOC; the others are RO (R292). -/
def State.chanWrite (s : State) (b o v : Nat) : Bool × State :=
  let n := chanOf o
  let c := (s.blk b).chan n
  let idle : Bool := c.prod == c.cons && c.stat == 0
  if (s.blk b).dmaAlloc ≤ n then (false, s)
  else if chanReg o = 0 then
    if !idle || 8 < v / 2 ^ 28 then (false, s) else (true, s.modChan b n (fun c => { c with cfg := b32 (v &&& 0xF01FFFC0) }))
  else if chanReg o = 4 then
    if !idle then (false, s) else (true, s.modChan b n (fun c => { c with err := b32 (v &&& 0x80001FFF) }))
  else (true, s)

/-- Halves of a 48-bit address register. -/
def lowHalf (x : BitVec 48) (v : Nat) : BitVec 48 := BitVec.ofNat 48 (x.toNat / 2 ^ 32 * 2 ^ 32 + v % 2 ^ 32)
def highHalf (x : BitVec 48) (v : Nat) : BitVec 48 := BitVec.ofNat 48 (v % 65536 * 2 ^ 32 + x.toNat % 2 ^ 32)

/-- A write of a block's register by a program: whether it is accepted, and the state. A write of an RO or RC register is
ignored; BLKMAP and PARTRECT are locked; the recovery registers are firmware's (R470). -/
def State.progWrite (s : State) (b o v : Nat) (src : Nat) : Bool × State :=
  let k := s.blk b
  if isWinOff o then s.winWrite b o v
  else if isChanOff o then s.chanWrite b o v
  else if o = 0x100 || o = 0x108 then (false, s.lockViolate 2 b (s.partOfBlk b) o v src)
  else if 0x1A00 ≤ o && o < 0x1A0C then (false, s)
  else if 0x2000 ≤ o then
    if o < 0x3000 || (0x4000 ≤ o && o % 32 = 20 && qpOf o < (s.nte (islOfBlk b)).qalloc) then (true, s)
    else s.nteRegWrite (islOfBlk b) o v
  else match o with
    | 0x1308 => (true, s.setBlk b { k with cbase := lowHalf k.cbase v })
    | 0x130C => (true, s.setBlk b { k with cbase := highHalf k.cbase v })
    | 0x1310 => (true, s.setBlk b { k with climit := lowHalf k.climit v })
    | 0x1314 => (true, s.setBlk b { k with climit := highHalf k.climit v })
    | 0x1318 => (true, s.setBlk b { k with cacheOvr := k.cacheOvr && !bit v 1 })
    | 0x1400 => if v % 16 < 8 then (false, s) else (true, s.setBlk b { k with scrubctl := b32 (v % 32) })
    | 0x140C => (true, s.setBlk b { k with starveBs := k.starveBs && !bit v 1, starveSp := k.starveSp && !bit v 0 })
    | 0x150C => (true, s.setBlk b { k with sigperm := BitVec.ofNat 16 v })
    | _ => (true, s)

/-- Has a write a row of its own? -/
def ownRow (s : State) (b : Nat) (a : Acc) : Bool :=
  let o := a.off
  (a.winCtl && winOpen (lget 0 (s.blk b).winCtl a.winNo) != bit a.val 31)
    || o == 0x104 || o == 0x1300 || o == 0x1304 || o == 0x1508 || o == 0x1510
    || (isChanOff o && (chanReg o == 8 || (chanReg o == 20 && a.val % 4 != 0)))
    || isQpOff o 8 || isQpOff o 12
    || (isMrOff o 0 && (lget ({} : Region) (s.nte (islOfBlk b)).mrs (mrOf o)).ctl.getLsbD 31 != bit a.val 31)

/-- MRn_CTL of a region that is not VALID and stays so takes its other fields; of a VALID one, a write that keeps VALID sets
RD, WR and TAG. -/
def State.mrCtlWrite (s : State) (i o v : Nat) : Bool × State :=
  let n := mrOf o
  if (s.nte i).malloc ≤ n then (false, s)
  else (true, s.modMr i n (fun r => { r with ctl := b32 (v &&& mrCtlMask) }))

/-- The oldest register write of a program at block `b` that has no row of its own. -/
def State.progReg (s : State) (b : Nat) : State :=
  match s.popCtl b (fun a => a.kind == .wr && !ownRow s b a) with
  | none => s
  | some (a, s) =>
    let src := a.sblk * 512 + a.sport
    let (ok, s) := if isMrOff a.off 0 then s.mrCtlWrite (islOfBlk b) a.off a.val else s.progWrite b a.off a.val src
    s.reply b a (if ok then 0 else 6) []

/-! ## Fences (R225, R390, R444, R449) -/

/-- A block fenced for reset, with the whole piazza that it belongs to (R225, R449). -/
def State.fenceSet (s : State) (b : Nat) : List Nat := if s.pzActive b then slotBlks (slotOfBlk b) else [b]

/-- A block is fenced for reset: requests that wait at it are answered FENCED, watches on its objects refused (R449). -/
def State.fenceBlk (s : State) (b : Nat) : State :=
  let k := s.blk b
  if k.rstFence then s
  else
    let s := s.setBlk b { k with rstFence := true, remoteIn := [], portIn := [] }
    let s := k.remoteIn.foldl (fun s a => s.reply b a 1 []) s
    let s := k.portIn.foldl (fun s e => s.portReply e.1 e.2 ansFenced []) s
    (List.range 16).foldl (fun s i => s.refuseAll b i) s

/-- Does a fence for reset stay after the action: of a block with a defect found in service (R431)? -/
def State.defective (s : State) (b : Nat) : Bool := s.aon.repairs.any (fun e => e.1 == b)

/-- The fence of a block lifts (R449, R470). -/
def State.liftBlk (s : State) (b : Nat) : State :=
  s.modBlk b (fun k => { k with rstFence := s.defective b, engHold := [] })

/-! ## Writes of the management core -/

/-- ENGWD: PROG below 100 leaves that field unchanged (Table 19-12). -/
def engwdWrite (old : W32) (v : Nat) : W32 :=
  b32 (bits v 16 4 * 65536 + (if v % 65536 < 100 then old.toNat % 65536 else v % 65536))

/-- A locked write ends with status LOCKED, a write of another value with the register's own status (R13, Table 00-8). -/
def State.rwl (s : State) (kind id part reg v : Nat) (f : State → Nat × State) : Nat × State :=
  if s.locked then (stLocked, s.lockViolate kind id part reg v 0xFFFF) else f s

/-- BLKMAP (Table 01-2): a SKIP above 0x10 leaves it unchanged. -/
def State.blkmapWrite (s : State) (b v : Nat) : Nat × State :=
  s.rwl 2 b (s.partOfBlk b) 0x100 v fun s =>
    if 16 < v % 32 then (stBadParam, s)
    else (stOk, s.modBlk b (fun k => { k with fence := bit v 8, skip := BitVec.ofNat 5 v }))

/-- SPORT code by which the answer to the management core's write of a block register is known. -/
def spMgmt : Nat := 514

/-- A write of a register whose effect is a row's: it waits at the block's control space for that row, in the management core's
name. -/
def State.fwCtl (s : State) (b o v : Nat) : State :=
  s.modBlk b (fun k => { k with ctlIn := k.ctlIn ++
    [{ kind := .wr, space := 3, off := o, size := 4, data := toBytes 4 v, mask := 15, sblk := b, sport := spMgmt }] })

/-- A block register written by firmware or boot code: the status that it returns, and the state. A block fenced in a running
piazza fences the whole piazza (R225). The status of a refused write is BAD_PARAM (notes/assumptions/89.md). -/
def State.fwBlkWrite (s : State) (b o v : Nat) : Nat × State :=
  let k := s.blk b
  let probe : Acc := { kind := .wr, space := 3, off := o, size := 4, data := toBytes 4 v }
  match o with
  | 0x100 => s.blkmapWrite b v
  | 0x108 => s.rwl 2 b (s.partOfBlk b) o v fun s => (stOk, s.modBlk b (fun k => { k with partrect := b32 (v &&& 0x9F1F0F0F) }))
  | 0x1A00 => (if v % 65536 < 100 then stBadParam else stOk, s.setBlk b { k with engwd := engwdWrite k.engwd v })
  | 0x1A04 => (stOk, s.setBlk b { k with engstat := k.engstat &&& ~~~(b32 (v % 16)) })
  | 0x1A08 => (stOk, (s.fenceSet b).foldl (fun s b => if bit v 0 then s.fenceBlk b else s.liftBlk b) s)
  | _ =>
    if ownRow s b probe then (stOk, s.fwCtl b o v)
    else
      let (ok, s) := if isMrOff o 0 then s.mrCtlWrite (islOfBlk b) o v else s.progWrite b o v 0xFFFF
      (if ok then stOk else stBadParam, s)

/-- Table 02-1: range of the voltage of an operating point in mV. -/
def opRange (op : Nat) : Nat × Nat :=
  [(520, 600), (570, 650), (620, 700), (670, 750), (710, 790), (740, 820), (780, 860), (810, 890)].getD op (0, 0)

def State.setBind (s : State) (i n : Nat) (v : W32) : State := s.modIsl i (fun k => { k with sbind := lset k.sbind n v })

/-- Does another VALID binding than island × 16 + number `n` name a port (R286)? -/
def State.portBound (s : State) (n p : Nat) : Bool :=
  (List.range 160).any (fun m => m != n && sbValid (s.sbind m) && sbPort (s.sbind m) == p)

/-- A write of SBINDn (R286, Table 11-5): VALID = 1 needs an in-service port of one of the partition's islands that no other
binding names, and RETIRED is then 0 (DEDUCED: notes/assumptions/102.md). -/
def State.sbindWrite (s : State) (i n v : Nat) : Nat × State :=
  let port := bits v 8 8
  let ok : Bool := decide (port < 160) && (s.isl i).part != 0xFF && (s.isl (port / 16)).part == (s.isl i).part && s.portUp port
    && !s.portBound (16 * i + n) port
  if bits v 29 2 = 3 || (bit v 31 && !ok) then (stBadParam, s)
  else (stOk, s.setBind i n (b32 ((v &&& 0xF000FF3F) +
    (if bit v 31 then 0 else (lget 0 (s.isl i).sbind n &&& 0x08000000#32).toNat))))

/-- A link register written by firmware (Table 14-11): LCTL or LRETRY, whose LIM does not take 0. -/
def State.linkWrite (s : State) (p o v : Nat) : Nat × State :=
  if o = 0 then
    let s := s.modPort p (fun q => { q with full := bit v 1 })
    let s := if bit v 2 && (s.port p).st != 4 then s.portRetire p 12 else s
    (stOk, if bit v 0 then s.trainStart p true else s)
  else if o = 0x1C then (if v % 16 = 0 then stBadParam else stOk, s.modPort p (fun q => { q with
    lretry := b32 (v / 2 ^ 16 * 2 ^ 16 + (if v % 16 = 0 then q.lretry.toNat % 16 else v % 16)) }))
  else (stOk, s)

/-- An island register written by firmware or boot code. -/
def State.fwIslWrite (s : State) (i o v : Nat) : Nat × State :=
  let k := s.isl i
  if o = 0x800 then s.rwl 1 i k.part o v fun s => (stOk, s.setIsl i { k with wpolicy := b32 (v % 2 ^ 13) })
  else if o = 0x840 then s.rwl 1 i k.part o v fun s => (stOk, s.setIsl i { k with own := b32 (v &&& 0x8F00FFFF) })
  else if o = 0x900 then (stOk, s.setWaitctl i (b32 v))
  else if o = 0xB00 then
    if k.cap < v % 8 then (stBadParam, s) else (stOk, (s.setIsl i { k with grant := v % 8 }).opMove i)
  else if o = 0xB04 then (stOk, s.setIsl i { k with mdcode := v % 32 })
  else if 0xB10 ≤ o && o < 0xB30 && o % 4 = 0 then
    let n := (o - 0xB10) / 4
    let mv := v % 1024
    if mv % 5 != 0 || lget 0 k.vceil n < mv || mv < (opRange n).1 || (opRange n).2 < mv then (stBadParam, s)
    else (stOk, s.setIsl i { k with ventry := lset k.ventry n mv })
  else if 0xC00 ≤ o && o < 0xC40 && o % 4 = 0 then s.sbindWrite i ((o - 0xC00) / 4) v
  else if 0x2000 ≤ o && o < 0x2400 then s.linkWrite (16 * i + (o - 0x2000) / 64) (o % 64) v
  else if 0x2400 ≤ o && o < 0x2440 then s.linkWrite (160 + i) (o % 64) v
  else (stOk, s)

/-- An always-on register written by firmware or boot code. -/
def State.fwAonWrite (s : State) (o v : Nat) : Nat × State :=
  if 0x100 ≤ o && o < 0x128 && o % 4 = 0 then
    s.rwl 0 0 0xFF o v fun s => (stOk, s.modPart ((o - 0x100) / 4) (fun p => { p with pdef := b32 (v &&& 0xE778FFFF) }))
  else if o = 0x140 then s.rwl 0 0 0xFF o v fun s => (stOk, s.modAon (fun a => { a with srcfg := b32 (v % 16) }))
  else if o = 0x408 then (stOk, s.modAon (fun a => { a with tbLost := a.tbLost && !bit v 1 }))
  else if o = 0x60C then if v % 32 < 4 || 24 < v % 32 then (stBadParam, s) else (stOk, { s with cethr := v % 32 })
  else if 0x2400 ≤ o && o < 0x2480 then s.linkWrite (170 + (o - 0x2400) / 64) (o % 64) v
  else if o = 0x704 then (stOk, s.modAon (fun a => { a with stctl := b32 (v % 65536) }))
  else (stOk, s)

/-- The status that a write of the management core returned (R13, Table 00-8). -/
def State.wrote (r : Nat × State) : State := r.2.modAon (fun a => { a with wstat := r.1 })

/-! ## The service ring (R28, R412) -/

/-- Place of an island's control stop on the ring: the master stop is place 0 in the east, the north islands follow from east to
west, the south islands from west to east (notes/assumptions/90.md). Segment k joins places k and k + 1 modulo 11. -/
def ringPlace (i : Nat) : Nat := if i < 5 then 5 - i else i + 1

/-- Is the stop at a place out of service? -/
def Aon.stopOut (a : Aon) (p : Nat) : Bool := (List.range 10).any (fun i => ringPlace i == p && a.ringStops.getLsbD i)

/-- Is the way from the master stop to place `p` in service, by rising places (`up`) or falling ones? -/
def Aon.wayOk (a : Aon) (up : Bool) (p : Nat) : Bool :=
  if up then (List.range p).all (fun k => !a.ringSegs.getLsbD k && (k == 0 || !a.stopOut k))
  else (List.range (11 - p)).all (fun k => !a.ringSegs.getLsbD (10 - k) && (k == 0 || !a.stopOut (11 - k)))

/-- The direction of a message to an island: the shorter one, or the other round a stop or segment out of service; none where
neither leads there. -/
def Aon.ringWay (a : Aon) (i : Nat) : Option Bool :=
  let p := ringPlace i
  let up : Bool := decide (p ≤ 5)
  if a.stopOut p then none else if a.wayOk up p then some up else if a.wayOk (!up) p then some (!up) else none

/-- Does a control stop act on a message with this tag (R412)? -/
def State.ringActs (s : State) (tag i : Nat) : Bool := tag == 15 || ((s.isl i).own.getLsbD 31 && bits (s.isl i).own.toNat 24 4 == tag)

/-- The effect of a message at its control stop. -/
def State.ringEffect (s : State) (m : RingMsg) : State :=
  match m.op with
  | .write 0 b o v => State.wrote (s.fwBlkWrite b o v)
  | .write _ i o v => State.wrote (s.fwIslWrite i o v)
  | .clear => s.modIsl m.isl (fun k => { k with ordered := true, cleared := false })

/-- A message reaches its control stop, which acts on it or drops it with a security log entry; none arrives where no way is in
service. -/
def State.ringTake (s : State) (m : RingMsg) : State :=
  if (s.aon.ringWay m.isl).isNone then s
  else if s.ringActs m.tag m.isl then s.ringEffect m
  else s.logEvent 1 m.isl 0x42 (s.isl m.isl).part [m.tag]

/-- Turn of a tag after the last one served, over the 11 tags 0 to 9 and 0xF. -/
def ringTurn (last tag : Nat) : Nat := (min tag 10 + 10 - min last 10) % 11

/-- The message that the master stop sends next: round-robin over the tags, the oldest of its tag. -/
def Aon.ringNext (a : Aon) : Option RingMsg :=
  a.ringq.foldl (fun m x =>
    match m with
    | none => some x
    | some y => if ringTurn a.ringLast x.tag < ringTurn a.ringLast y.tag then some x else m) none

/-- A message waits at the master stop. -/
def State.ringPost (s : State) (m : RingMsg) : State := s.modAon (fun a => { a with ringq := a.ringq ++ [m] })

/-- The master stop sends one waiting message. -/
def State.ringStep (s : State) : State :=
  match s.aon.ringNext with
  | none => s
  | some m => (s.modAon (fun a => { a with ringq := a.ringq.erase m, ringLast := m.tag })).ringTake m

/-- The master stop sends every waiting message. -/
def State.ringRun (s : State) : State := s.aon.ringq.foldl (fun s _ => s.ringStep) s

/-- The management core sends a message and waits until it has been acted on. -/
def State.ringSend (s : State) (tag i : Nat) (op : RingOp) : State := (s.ringPost { tag := tag, isl := i, op := op }).ringRun

/-- REGISTER_WRITE: `fw` false: the oldest waiting write of a program at block `unit`; `fw` true: the management core writes the
register at `off` of a block (space 0), an island (1), both over the service ring, or the always-on island (2). -/
def execRegisterWrite (fw : Bool) (space unit off : Nat) (value : BitVec 32) (s : State) : Res :=
  if !fw then onBlk unit s fun s => s.progReg unit
  else if space = 0 then onBlk unit s fun s => s.ringSend 15 (islOfBlk unit) (.write 0 unit off value.toNat)
  else if space = 1 then onIsl unit s fun s => s.ringSend 15 unit (.write 1 unit off value.toNat)
  else if space = 2 then .next (State.wrote (s.fwAonWrite off value.toNat))
  else .fault (.noSuchUnit "register space" space)

/-- BLKMAP_WRITE: boot code writes a block's map; an invalid SKIP leaves it, and after the lock it is a locked write. -/
def execBlkmapWrite (b : Nat) (value : BitVec 32) (s : State) : Res :=
  onBlk b s fun s => s.ringSend 15 (islOfBlk b) (.write 0 b 0x100 value.toNat)

/-- BOOTPH_WRITE: the phase only advances; in phase 2 a write is a locked write. There is no phase 3 (R407,
notes/assumptions/42.md). -/
def execBootphWrite (value : BitVec 32) (s : State) : Res :=
  .next (State.wrote (s.rwl 0 0 0xFF 0x10 value.toNat fun s =>
    let v := value.toNat % 4
    (stOk, if s.aon.bootph.toNat < v && v ≤ 2 then s.modAon (fun a => { a with bootph := BitVec.ofNat 2 v }) else s)))

/-- RC_REGISTER_READ: the oldest waiting read of an RC register of block `b` returns it and clears it. RSTADDR and PBCREC
clear with the CSR instructions that read them. -/
def execRcRegisterRead (b : Nat) (s : State) : Res :=
  onBlk b s fun s =>
    match s.popCtl b (fun a => a.kind == .rd && isRcOff a.off) with
    | none => s
    | some (a, s) =>
      let v := (s.ctlRead b a.off).getD 0
      (s.modBlk b (fun k => if a.off = 0x1204 then { k with wvaddr := 0 } else { k with wvstat := 0 })).reply b a 0 (toBytes a.size v)

end Sys2Proof.Machine
end

