-- ==== Sys2Proof/Machine/Firmware.lean ====
section
/-!
DEFINITION. Command items: intake, queues, time limits, and the commands that inspect and configure (R381 to R392, R402,
R433, R494, R497; Table 16-4).
-/

namespace Sys2Proof.Machine

/-! ## The opcode table (Table 16-4) -/

/-- A row of Table 16-4: management queue, requester classes as bits by class number, whether PART must name an existing
partition (1) or an open one (2), the mark "A", the bytes that parameters occupy (none: checked with the command). -/
structure OpRow where
  mgmt : Bool
  cls : Nat
  need : Nat := 0
  undo : Bool := false
  pars : Option (List (Nat × Nat)) := some []
deriving DecidableEq, Repr

def clA : Nat := 2
def clT : Nat := 4
def clK : Nat := 8
def clAny : Nat := 30

def opRow (op : Nat) : Option OpRow :=
  match op with
  | 0x00 => some { mgmt := true, cls := clAny }
  | 0x01 => some { mgmt := true, cls := clA + clK, pars := some [(32, 2)] }
  | 0x02 => some { mgmt := true, cls := clA }
  | 0x10 => some { mgmt := true, cls := clA, pars := none }
  | 0x11 => some { mgmt := true, cls := clT, need := 1, pars := some [(32, 32), (64, 1), (65, 97)] }
  | 0x12 => some { mgmt := true, cls := clA + clT, need := 1 }
  | 0x13 => some { mgmt := false, cls := clA + clT, need := 2, pars := some [(32, 8)] }
  | 0x14 => some { mgmt := false, cls := clA + clT, need := 2 }
  | 0x20 => some { mgmt := false, cls := clT, need := 2, undo := true, pars := none }
  | 0x21 => some { mgmt := false, cls := clT, need := 2 }
  | 0x22 => some { mgmt := false, cls := clT, need := 2, undo := true, pars := some [(32, 16)] }
  | 0x30 => some { mgmt := false, cls := clT, need := 2, pars := some [(32, 4)] }
  | 0x31 => some { mgmt := false, cls := clT, need := 2, pars := some [(32, 1), (34, 6)] }
  | 0x40 => some { mgmt := false, cls := clA + clT, need := 2, pars := some [(32, 6)] }
  | 0x41 => some { mgmt := false, cls := clA + clT, need := 2, pars := some [(32, 2)] }
  | 0x42 => some { mgmt := false, cls := clT, need := 2, pars := some [(32, 1), (40, 29)] }
  | 0x43 => some { mgmt := false, cls := clT, need := 2, pars := some [(32, 1), (34, 2), (40, 45)] }
  | 0x44 => some { mgmt := false, cls := clT, need := 2, pars := some [(32, 1), (34, 2)] }
  | 0x45 => some { mgmt := true, cls := clA, pars := some [(32, 1)] }
  | 0x46 => some { mgmt := true, cls := clA, undo := true, pars := some [(32, 2)] }
  | 0x47 => some { mgmt := true, cls := clA, pars := some [(32, 1)] }
  | 0x50 => some { mgmt := true, cls := clA + clT, need := 1 }
  | 0x51 => some { mgmt := true, cls := clA + clT, need := 1 }
  | 0x52 => some { mgmt := true, cls := clA + clT, need := 1, pars := some [(32, 2)] }
  | 0x53 => some { mgmt := true, cls := clA + clT, need := 1, pars := some [(32, 3)] }
  | 0x54 => some { mgmt := true, cls := clA + clT, need := 1, pars := some [(32, 3)] }
  | 0x55 => some { mgmt := true, cls := clA + clT, need := 1, pars := some [(32, 1), (34, 2)] }
  | 0x56 => some { mgmt := true, cls := clA + clT, need := 1 }
  | 0x57 => some { mgmt := true, cls := clA }
  | 0x60 => some { mgmt := true, cls := clA, pars := some [(32, 6)] }
  | 0x61 => some { mgmt := true, cls := clA + clT, need := 1, undo := true, pars := some [(32, 6)] }
  | 0x62 => some { mgmt := true, cls := clA + clT, need := 1, undo := true, pars := some [(32, 8)] }
  | 0x63 => some { mgmt := true, cls := clA + clT, pars := some [(32, 2)] }
  | 0x70 => some { mgmt := true, cls := clK, pars := some [(32, 4)] }
  | 0x71 => some { mgmt := true, cls := clK }
  | 0x72 => some { mgmt := true, cls := clK, pars := some [(32, 10)] }
  | 0x73 => some { mgmt := true, cls := clA + clK, pars := some [(32, 4)] }
  | 0x80 => some { mgmt := true, cls := clA, undo := true, pars := some [(32, 4)] }
  | 0x81 => some { mgmt := true, cls := clA }
  | 0x90 => some { mgmt := true, cls := clAny, pars := some [(32, 48)] }
  | 0x91 => some { mgmt := true, cls := clAny, pars := some [(32, 1)] }
  | 0x92 => some { mgmt := true, cls := clA, pars := none }
  | 0x93 => some { mgmt := true, cls := clA }
  | 0x94 => some { mgmt := true, cls := clT, need := 2 }
  | 0x95 => some { mgmt := true, cls := clT, need := 2, pars := some [(32, 96)] }
  | 0x96 => some { mgmt := true, cls := clA + clT, need := 1 }
  | 0xF0 => some { mgmt := true, cls := clT, need := 2, pars := some [(32, 1), (34, 3)] }
  | 0xF1 => some { mgmt := true, cls := clT, need := 2, pars := some [(32, 1), (34, 3)] }
  | 0xF2 => some { mgmt := true, cls := clT, need := 2, pars := some [(32, 3)] }
  | 0xF3 => some { mgmt := true, cls := clT, need := 2, pars := some [(32, 2)] }
  | 0xF4 => some { mgmt := true, cls := clT, need := 2, pars := some [(32, 1)] }
  | _ => none

/-! ## Intake (R381 to R386, R413) -/

/-- Does a partition exist (PARTDEFp.VALID with HALVES other than 0b00)? Its tenant tag. -/
def State.partExists (s : State) (p : Nat) : Bool := p < 10 && (s.partn p).pdef.getLsbD 31 && bits (s.partn p).pdef.toNat 29 2 != 0
def State.partTenant (s : State) (p : Nat) : Nat := (s.partn p).pdef.toNat % 2 ^ 16

def Item.tenant (i : Item) : Nat := i.fld 12 2

/-- Are all parameter bytes that a row does not name 0? -/
def unnamedOk (d : List Byte) : Option (List (Nat × Nat)) → Bool
  | none => true
  | some ps => (List.range (d.length - 32)).all (fun j =>
      ps.any (fun p => p.1 ≤ 32 + j && 32 + j < p.1 + p.2) || d.getD (32 + j) 0 == 0)

/-- Is a byte string an uncompressed P-384 point on the curve (R414)? y² = x³ − 3x + b modulo the field prime. -/
def p384Point (d : List Byte) : Bool :=
  let p := 2 ^ 384 - 2 ^ 128 - 2 ^ 96 + 2 ^ 32 - 1
  let b := 0xB3312FA7E23EE7E4988E056BE3F82D19181D9C6EFE8141120314088F5013875AC656398D8A2ED19D2A85C8EDD3EC2AEF
  let x := ofBytes ((d.drop 1).take 48).reverse
  let y := ofBytes ((d.drop 49).take 48).reverse
  d.length == 97 && d.headD 0 == 4#8 && decide (x < p) && decide (y < p) && (y * y + 3 * x) % p == (x * x * x + b) % p

/-- The ranges that Table 16-4 and its owning chapters give a parameter whatever the state of the die: a value outside one is
BAD_PARAM at intake (R382). Ranges that depend on state are judged when the item runs. -/
def Item.paramOk (i : Item) : Bool :=
  let lt := fun (o n m : Nat) => decide (i.fld o n < m)
  match i.op with
  | 0x01 => lt 32 2 1024
  | 0x11 => i.fld 32 32 != 0 && lt 64 1 2 && (i.fld 64 1 == 0 || p384Point ((i.bytes.drop 65).take 97))
  | 0x13 => lt 32 4 (2 ^ 20) && lt 36 4 (2 ^ 20)
  | 0x30 => lt 32 2 nBlocks
  | 0x31 => lt 32 1 3 && lt 34 2 (16 * nBlocks) && lt 36 4 (2 ^ 31)
  | 0x40 => lt 32 1 10 && lt 33 1 16 && lt 34 1 3 && lt 35 1 2 && lt 36 1 160 && lt 37 1 64
  | 0x41 => lt 32 1 10 && lt 33 1 16
  | 0x42 => lt 32 1 10 && lt 46 2 4096 && lt 48 1 8
  | 0x43 => lt 32 1 10
  | 0x44 => lt 32 1 10 && lt 34 2 512
  | 0x45 => lt 32 1 172
  | 0x46 => lt 32 1 172 && lt 33 1 2
  | 0x47 => lt 32 1 172
  | 0x52 => lt 32 2 nBlocks
  | 0x53 => lt 32 2 nBlocks
  | 0x54 => lt 32 2 nBlocks && lt 34 1 4
  | 0x55 => lt 32 1 2
  | 0x60 => i.fld 36 2 != 0 && lt 36 2 128
  | 0x61 => lt 36 2 8161
  | 0x62 => lt 32 8 (2 ^ 48)
  | 0x63 => lt 32 2 nBlocks
  | 0x70 => decide (100 ≤ i.fld 32 2) && lt 32 2 721 && decide (i.fld 32 2 ≤ i.fld 34 2) && lt 34 2 901
  | 0x72 => (List.range 10).all (fun n => lt (32 + n) 1 32 || i.fld (32 + n) 1 == 0xFF)
  | 0x73 => lt 32 2 512 && i.fld 34 2 != 0 && lt 34 2 61
  | 0x80 => lt 32 2 1024 && lt 34 2 4
  | 0x91 => lt 32 1 2
  | 0xF0 => lt 32 1 3
  | 0xF1 => lt 32 1 3
  | 0xF2 => lt 32 2 nBlocks
  | 0xF3 => lt 32 2 (16 * nBlocks)
  | 0xF4 => lt 32 1 4
  | _ => true

/-- The header checks in order: a status other than OK where one fails (R381, R382, R383). -/
def State.headerCheck (s : State) (i : Item) (r : Option OpRow) : Nat :=
  match r with
  | none => stBadOpcode
  | some r =>
    if i.fld 1 1 != 1 then stBadOpcode
    else if i.port < 10 && (s.isl i.port).part != i.part then stDenied
    else if !bit r.cls i.cls || i.cls == 0 || 4 < i.cls then stDenied
    else if i.cls = 2 && i.part != 0xFF && !(s.partExists i.part && s.partTenant i.part == i.tenant) then stDenied
    else if i.fld 4 2 != i.bytes.length || i.bytes.length < 32 || 8192 < i.bytes.length || 1 < i.fld 2 1 || 3 < i.fld 3 1
        || i.fld 9 1 != 0 || i.fld 14 2 != 0 || i.fld 20 12 != 0 then stBadParam
    else if 10 ≤ i.part && i.part != 0xFF then stBadParam
    else if r.need ≥ 1 && !s.partExists i.part then stBadParam
    else if r.need ≥ 2 && !(s.partn i.part).isOpen then stBadParam
    else if !unnamedOk i.bytes r.pars || !i.paramOk then stBadParam
    else stOk

/-- An item joins its queue, or is answered: FENCED for a lost partition other than by QUERY_PARTITION, BUSY for a full queue
or an exhausted quota. -/
def State.accept2 (s : State) (i : Item) (r : OpRow) : State :=
  let q := if r.mgmt then 10 else i.part
  let l := s.queue q
  if i.part < 10 && (s.partn i.part).lost && i.op != 0x14 then s.answer i { status := stFenced }
  else if l.any (fun x => x.op == 0x93 && x.started) && (i.op == 0x92 || i.op == 0x93) then s.answer i { status := stBusy }
  else if (if r.mgmt then 16 else 64) ≤ l.length then s.answer i { status := stBusy }
  else if r.mgmt && s.aon.srcfg.toNat % 16 ≤ (l.filter (fun x => x.fld 10 2 == i.fld 10 2)).length then
    s.answer i { status := stBusy }
  else { s.setQueue q (l ++ [{ i with seq := s.itemSeq }]) with itemSeq := s.itemSeq + 1 }

/-- COMMAND_ITEM: the oldest message of virtual channel 0 of a packet port is a command item, accepted or answered. A message
whose byte 0 is 0xE0 is a power reading. -/
def execCommandItem (pp : Nat) (s : State) : Res :=
  onPp pp s fun s =>
    if !s.fwUp then s
    else match s.popMsg pp 0 (fun m => fld m 0 1 != 0xE0) with
      | none => s
      | some (m, s) =>
        let i : Item := { port := pp, bytes := m, seq := 0, tick := s.ticks }
        let r := opRow i.op
        let st := s.headerCheck i r
        if st = stDenied then (s.logEvent 4 pp 0x42 (if i.part < 10 then i.part else 0xFF) [i.op, i.fld 10 2]).answer i { status := st }
        else if st != stOk then s.answer i { status := st }
        else match r with
          | none => s
          | some r => s.accept2 i r

/-- Does an activation of firmware run (R437)? -/
def State.activating (s : State) : Bool := (s.queue 10).any (fun i => i.op == 0x93 && i.started)

/-- Does an earlier item of the queue hold one back (R387)? An ORD item waits for all before it; none overtakes an ORD item. -/
def startable : List Item → List Item
  | [] => []
  | i :: rest => if i.ord then [i] else i :: rest.takeWhile (fun x => !x.ord)

/-- The item that starts next: the highest PRIO, the earliest among equals. -/
def nextItem (l : List Item) : Option Item :=
  (startable l).foldl (fun m i =>
    match m with
    | none => some i
    | some x => if x.prio < i.prio then some i else m) none

/-- Have all packet ports of a partition's islands failed or retired, so that its commands return TIMEOUT (Table 01-5;
notes/assumptions/88.md)? -/
def State.portsLost (s : State) (p : Nat) : Bool :=
  !(s.islsOf p).isEmpty && (s.islsOf p).all (fun i => (s.port (160 + i)).st == 3 || (s.port (160 + i)).st == 4)

/-- ITEM_START: queue `q` has no item in progress; its next item starts. A partition fenced for reset starts none (R390); an
item of one with no packet port left is answered TIMEOUT (R35). -/
def execItemStart (q : Nat) (s : State) : Res :=
  if 11 ≤ q then .fault (.noSuchUnit "queue" q)
  else .next (
    if !s.fwUp || s.activating || (s.inProg q).isSome || (q < 10 && (s.partn q).fenced) then s
    else match nextItem (s.queue q) with
      | none => s
      | some i =>
        if q < 10 && s.portsLost q then s.finish q i { status := stTimeout }
        else s.setQueue q ((s.queue q).map (fun x => if x.seq = i.seq then { x with started := true } else x)))

/-- Has an item's TIMEOUT expired (R389)? A started item may still complete in the tick of its expiry. -/
def Item.expired (i : Item) (now : Nat) : Bool :=
  i.timeout != 0 && !i.answered && decide (i.tick + 100 * i.timeout + boolNat i.started ≤ now)

/-- The work under way of an item marked "A" is undone: a training that LINK_TRAIN began leaves its port DOWN; the tests that
SELFTEST_RUN selected do not begin, and one that runs is dropped at its checkpoint. -/
def State.undo (s : State) (i : Item) : State :=
  if i.op = 0x46 && i.going then
    s.modPort (i.fld 32 1) (fun p => if p.st = 1 then { p with st := 0 } else p)
  else if i.op = 0x80 && i.going then
    ((List.range 10).filter (bit (i.fld 32 2))).foldl (fun s n => s.modIsl n (fun k =>
      if k.stRun.isSome then { k with stDrop := true }
      else if k.stRes = 5 || k.stRes = 2 then { k with stRes := 4, stQueued := 0 } else k)) s
  else s

/-- COMMAND_TIMEOUT: the first expired item of queue `q` is answered TIMEOUT; one that has started and carries no "A" runs on. -/
def execCommandTimeout (q : Nat) (s : State) : Res :=
  if 11 ≤ q then .fault (.noSuchUnit "queue" q)
  else .next (
    if !s.fwUp then s
    else match (s.queue q).find? (fun i => i.expired s.ticks) with
      | none => s
      | some i =>
        if !i.started then s.finish q i { status := stTimeout }
        else if ((opRow i.op).map (·.undo)).getD false then (s.undo i).finish q i { status := stTimeout }
        else (s.answer i { status := stTimeout }).setQueue q
          ((s.queue q).map (fun x => if x.seq = i.seq then { x with answered := true } else x)))

/-- The management command with opcode `op` in progress. -/
def fwM (op : Nat) (s : State) (f : Item → State → Reply × State) : Res := fwCmd op 10 s f

/-- The command of partition queue `q`. -/
def fwP (op q : Nat) (s : State) (f : Item → State → Reply × State) : Res :=
  if 10 ≤ q then .fault (.noSuchUnit "partition" q) else fwCmd op q s f

/-- A message that names partition `p` and an opcode of the partition queues. -/
def queuedFor (p : Nat) (h : List Byte) : Bool := fld h 8 1 == p && ((opRow (fld h 0 1)).map (fun r => !r.mgmt)).getD false

/-- Items for partition `p` that have arrived whole at port `pp` and that firmware has not taken yet: its queue flushes them. -/
def State.inboxItems (s : State) (p pp : Nat) : List Item :=
  (lget [] (s.port (ppPort pp)).inbox 0).filterMap (fun m =>
    let i : Item := { port := pp, bytes := m, seq := 0, tick := s.ticks }
    if queuedFor p m && s.headerCheck i (opRow i.op) == stOk then some i else none)

/-- FLUSH_QUEUE's effect on partition `p`: waiting items and items still arriving are answered FLUSHED; how many (R391). -/
def State.flushQueue (s : State) (p : Nat) : Nat × State :=
  let w := (s.queue p).filter (fun i => !i.started) ++ (List.range 12).flatMap (s.inboxItems p)
  let s := (List.range 12).foldl (fun s pp =>
    let mine := (s.inboxItems p pp).map (·.bytes)
    s.modPort (ppPort pp) (fun q => { q with inbox := cset [] q.inbox 0 ((lget [] q.inbox 0).filter (fun m => !mine.contains m)) })) s
  let s := w.foldl (fun s i => s.answer i { status := stFlushed }) (s.setQueue p ((s.queue p).filter (·.started)))
  let part := fun (q : Port) =>
    match lget [] q.asm 0 with
    | [] => false
    | f :: _ => queuedFor p (beatBytes f) && !q.dropMsg.contains 0
  let ports := (List.range 12).filter (fun pp => part (s.port (ppPort pp)))
  (w.length + ports.length, ports.foldl (fun s pp => s.modPort (ppPort pp) (fun q => { q with dropMsg := q.dropMsg ++ [0] })) s)

/-- FLUSH_QUEUE. -/
def execFlushQueue (s : State) : Res :=
  fwM 0x56 s fun i s => let (n, s) := s.flushQueue i.part; ({ detail := n }, s)

/-! ## Counts and maps -/

/-- A number from the bits that satisfy a test. -/
def maskOf (n : Nat) (f : Nat → Bool) : Nat := (List.range n).foldl (fun acc i => acc + boolNat (f i) * 2 ^ i) 0

def State.fencedN (s : State) : Nat := ((List.range 320).filter s.outOfService).length
def State.fusableN (s : State) : Nat := ((List.range 20).filter s.fusable).length

/-- GSTAT: 1 when the counts are below the marked grade's minimums (Table 00-5, R432). DESIGN CHOICE (notes/assumptions/87.md): a
GRADE fuse without a code of Table 18-2 takes grade C's minimums, and the identity record shows 9 + the fuse. -/
def State.gstat (s : State) : Nat :=
  let (f, u) := match s.fuse 10 0 with
    | 1 => (0, 20)
    | 2 => (8, 18)
    | _ => (16, 16)
  boolNat (decide (f < s.fencedN) || decide (s.fusableN < u))

/-- Capability word (Table 18-4). -/
def capWord : Nat := 2 * 2 ^ 44 + 9 * 2 ^ 32 + 2 ^ 28 + 2 ^ 24 + 0xFF * 2 ^ 16 + 16 * 2 ^ 8 + 3 * 2 ^ 4 + 3

/-- The identity record (Table 18-3). -/
def State.identity (s : State) : List Byte :=
  let a := s.aon
  toBytes 1 1 ++ toBytes 1 (9 + s.fuse 10 0) ++ toBytes 1 s.gstat ++ toBytes 1 (boolNat a.warm) ++ toBytes 1 s.pos.toNat
    ++ toBytes 1 a.pkgclass.toNat ++ toBytes 2 s.linkId ++ toBytes 16 (s.fuse 5 0) ++ toBytes 4 (256 * (320 - s.fencedN))
    ++ toBytes 2 s.fencedN ++ toBytes 1 s.fusableN ++ toBytes 1 0 ++ toBytes 2 (maskOf 10 (fun i => (s.isl i).present))
    ++ toBytes 2 0 ++ toBytes 4 (maskOf 20 (fun x => (s.blk (140 + x)).seamFailed || (s.blk (160 + x)).seamFailed))
    ++ toBytes 8 capWord ++ toBytes 4 (maskOf 20 s.fusable) ++ toBytes 40 (maskOf 320 s.outOfService)
    ++ toBytes 22 (maskOf 172 (fun p => (s.port p).st == 3 || (s.port p).st == 4)) ++ toBytes 2 0 ++ toBytes 4 a.fwver
    ++ toBytes 4 a.bcver ++ toBytes 4 a.secver ++ toBytes 4 a.startUs ++ toBytes 1 a.bootph.toNat ++ toBytes 27 0

/-- IDENTIFY. -/
def execIdentify (s : State) : Res := fwM 0x00 s fun _ s => dataR s.identity s

/-- Island counter `k`: 0 the step counter, 1 to 7 EV1 to EV7; 48 bits and the extension above them (R497). -/
def Island.counter (i : Island) (k : Nat) : BitVec 64 := lget 0 i.cnt k

/-- READ_STEPCNT: eight counters for each selected island, then the package time. -/
def execReadStepcnt (s : State) : Res :=
  fwM 0x01 s fun i s =>
    let sel := i.fld 32 2
    if 1024 ≤ sel then failR stBadParam s
    else dataR (((List.range 10).filter (bit sel)).flatMap (fun n =>
      (List.range 8).flatMap (fun k => toBytes 8 ((s.isl n).counter k).toNat)) ++ toBytes 8 s.pktime.toNat) s

/-- First slot column, last, first slot row, last, of a partition (PARTDEF). -/
def partRect (d : W32) : Nat × Nat × Nat × Nat :=
  let h := bits d.toNat 29 2
  (bits d.toNat 20 3, bits d.toNat 24 3, if h = 2 then 2 else 0, if h = 1 then 1 else 3)

/-- Slots of a partition with their partition-relative numbers (Table 16-4, SET_SLOT_MODE). -/
def partSlots (d : W32) : List (Nat × Nat) :=
  let (x0, x1, y0, y1) := partRect d
  (List.range (y1 + 1 - y0)).flatMap (fun dy => (List.range (x1 + 1 - x0)).map (fun dx => (5 * dy + dx, (y0 + dy) * 5 + x0 + dx)))

def State.slot (s : State) (k : Nat) : Slot := lget {} s.slots k

/-- READ_PARTMAP: for each partition its ID, rectangle, slot modes, state and tenant; the layout is open
(notes/assumptions/32.md). -/
def execReadPartmap (s : State) : Res :=
  fwM 0x02 s fun _ s =>
    dataR (Config.replyData 0x02 (((List.range 10).filter s.partExists).flatMap (fun p =>
      let d := (s.partn p).pdef
      let (x0, x1, y0, y1) := partRect d
      [p, x0, x1, y0, y1, (partSlots d).foldl (fun a e => a + boolNat (s.slot e.2).reqPz * 2 ^ e.1) 0,
       (partSlots d).foldl (fun a e => a + boolNat (s.slot e.2).active * 2 ^ e.1) 0, boolNat (s.partn p).isOpen,
       boolNat (s.partn p).lost, d.toNat % 2 ^ 16]))) s

/-- QUERY_PARTITION: state, image state, usable variants, context, bindings. -/
def execQueryPartition (q : Nat) (s : State) : Res :=
  fwP 0x14 q s fun _ s =>
    let p := s.partn q
    dataR (Config.replyData 0x14 ([boolNat p.isOpen, boolNat p.lost, boolNat p.image.isSome, p.usable, p.run, p.variant,
      p.endTick.toNat, p.outcome] ++ (s.islsOf q).flatMap (fun i => (List.range 16).map (fun n => (lget 0 (s.isl i).sbind n).toNat)))) s

/-! ## Plans and modes (R30, R31, R402, R405) -/

/-- One entry of SET_PLAN. The spec names its fields and not their places (notes/assumptions/34.md): SX0, SX1, HALVES, DBGEN,
TENANT (2), slot modes (4), WPOLICY (2) of each island in island order. -/
def planEntry (d : List Byte) : PlanPart :=
  { sx0 := fld d 0 1, sx1 := fld d 1 1, halves := fld d 2 1, dbgen := fld d 3 1 == 1, tenant := BitVec.ofNat 16 (fld d 4 2),
    modes := fld d 6 4, wpol := (List.range 10).map (fun j => BitVec.ofNat 32 (fld d (10 + 2 * j) 2)) }

/-- The shape is one of R29 and the fields are in range. -/
def PlanPart.ok (p : PlanPart) : Bool :=
  decide (p.sx0 ≤ p.sx1) && decide (p.sx1 ≤ 4) && decide (1 ≤ p.halves) && decide (p.halves ≤ 3) && p.tenant != 0
    && decide (p.modes < 2 ^ 20) && p.wpol.all (fun w => w.toNat < 2 ^ 13)

def PlanPart.overlaps (p q : PlanPart) : Bool :=
  (p.halves &&& q.halves) != 0 && decide (p.sx0 ≤ q.sx1) && decide (q.sx0 ≤ p.sx1)

/-- Each partition against those before it. -/
def planClash : List PlanPart → List PlanPart → Bool
  | _, [] => false
  | seen, p :: ps => seen.any (fun q => p.overlaps q || p.tenant == q.tenant) || planClash (seen ++ [p]) ps

/-- Does a partition of both halves include a block column whose seam direction has failed (R325)? -/
def State.planSeam (s : State) (p : PlanPart) : Bool :=
  p.halves == 3 && (List.range 20).any (fun x => decide (4 * p.sx0 ≤ x) && decide (x ≤ 4 * p.sx1 + 3)
    && ((s.blk (140 + x)).seamFailed || (s.blk (160 + x)).seamFailed))

/-- SET_PLAN: checked, then kept for the next chip reset. -/
def execSetPlan (s : State) : Res :=
  fwM 0x10 s fun i s =>
    let n := i.fld 32 1
    let ps := (List.range n).map (fun p => planEntry ((i.bytes.drop (64 + 32 * p)).take 32))
    let rest : Bool := (i.bytes.take 64).drop 33 |>.all (· == 0)
    let tail : Bool := (i.bytes.drop (64 + 32 * n)).all (· == 0)
    if 10 < n || i.bytes.length < 64 + 32 * n || !rest || !tail || !ps.all PlanPart.ok || planClash [] ps then failR stBadParam s
    else if ps.any s.planSeam then failR stNoResource s
    else okR ((s.modAon (fun a => { a with plan := ps, nvPlan := ps })).hub 3 0 (i.bytes.drop 64))

/-- Is a cobble, DMA channel, stream binding or queue pair of a slot's blocks active (R30)? DESIGN CHOICE
(notes/assumptions/86.md): a running cobble; a channel that is RUNNING or DRAINING, has posted descriptors or one in progress; a
stream port with a command that waits or is unanswered; a queue pair in RTS. -/
def State.slotActive (s : State) (k : Nat) : Bool :=
  (List.range 16).any (fun j =>
    let b := blkOfSlot k j
    s.cobs.any (fun e => blkOf e.1 == b && e.2.run == .running)
      || (s.blk b).chans.any (fun e => e.2.stat == 1 || e.2.stat == 3 || e.2.prod != e.2.cons || !e.2.descs.isEmpty)
      || !(s.blk b).portIn.isEmpty || (List.range 160).any (fun p => spBlk p == b && !(s.port p).tags.isEmpty)
      || (ppBlk (islOfBlk b) == b && (s.nte (islOfBlk b)).qps.any (fun e => e.2.stat == 1)))

/-- SET_SLOT_MODE: requests are recorded for the next clear (R206), refused for an active slot or one that cannot fuse. -/
def execSetSlotMode (q : Nat) (s : State) : Res :=
  fwP 0x13 q s fun i s =>
    let sl := partSlots (s.partn q).pdef
    let all := sl.foldl (fun a e => a + 2 ^ e.1) 0
    let sel := i.fld 32 4
    let modes := i.fld 36 4
    let todo := sl.filter (fun e => bit sel e.1)
    if sel &&& all != sel || modes &&& all != modes then failR stBadParam s
    else if todo.any (fun e => bit modes e.1 && !s.fusable e.2) then failR stNoResource s
    else if todo.any (fun e => (s.slot e.2).reqPz != bit modes e.1 && s.slotActive e.2) then failR stBusy s
    else okR (todo.foldl (fun s e => s.modSlot e.2 (fun p => { p with reqPz := bit modes e.1 })) s)

/-! ## Signals through the queue -/

/-- Is block `b` of partition `p`? -/
def State.inPart (s : State) (p b : Nat) : Bool := b < nBlocks && s.partOfBlk b == p

/-- SET_SIGPERM. -/
def execSetSigperm (q : Nat) (s : State) : Res :=
  fwP 0x30 q s fun i s =>
    let b := i.fld 32 2
    if !s.inPart q b then failR stBadParam s
    else okR (s.ringSend q (islOfBlk b) (.write 0 b 0x150C (i.fld 34 2)))

/-- SIGNAL: the operation of Table 07-5 with the statuses of R196; the reply data is the object word. -/
def execSignal (q : Nat) (s : State) : Res :=
  fwP 0x31 q s fun i s =>
    let op := i.fld 32 1
    let obj := i.fld 34 2
    let v := i.fld 36 4
    let b := obj / 16
    let k := s.blk b
    let word := fun (st : Nat) (s : State) => ({ status := st, data := toBytes 4 (lget 0 (s.blk b).sync (obj % 16)).toNat }, s)
    if 2 < op || 5120 ≤ obj || 2 ^ 31 ≤ v then failR stBadParam s
    else if !s.inPart q b then failR stDenied (s.logEvent 4 i.port 0x42 q [i.op, obj])
    else if k.fence || k.rstFence then failR stFenced s
    else if !k.sigperm.getLsbD (obj % 16) then failR stDenied (s.logEvent 4 i.port 0x42 q [i.op, obj])
    else if op = 0 then
      let (ok, s) := s.objAdd b (obj % 16) v 513
      word (if ok then stOk else stBadParam) (s.wakeMet b (obj % 16))
    else if op = 1 then word stOk ((s.modBlk b (fun k => { k with sync := lset k.sync (obj % 16) (b32 v) })).wakeMet b (obj % 16))
    else word stOk s

/-! ## Streams and links (R286, R344, R358, R363, R364) -/

/-- Are descriptors outstanding on a binding (island × 16 + number): ones that use BIND (R294)? -/
def State.bindBusy (s : State) (n : Nat) : Bool :=
  s.blks.any (fun e => e.2.chans.any (fun c => c.2.descs.any (fun d => d.bound && d.bind == n)))

/-- BIND_STREAM: SBINDn with VALID = 1. The port is in service, of one of the partition's islands, in no other binding. -/
def execBindStream (q : Nat) (s : State) : Res :=
  fwP 0x40 q s fun i s =>
    let isl := i.fld 32 1
    let n := i.fld 33 1
    let kind := i.fld 34 1
    let infe := i.fld 35 1
    let port := i.fld 36 1
    let far := i.fld 37 1
    if 10 ≤ isl || (s.isl isl).part != q || 15 < n then failR stBadParam s
    else if s.bindBusy (16 * isl + n) then failR stBusy s
    else if 2 < kind || 1 < infe || 63 < far || 160 ≤ port || (s.isl (port / 16)).part != q || !s.portUp port
        || (List.range 160).any (fun m => m != 16 * isl + n && sbValid (s.sbind m) && sbPort (s.sbind m) == port) then
      failR stBadParam s
    else okR (s.ringSend q isl (.write 1 isl (0xC00 + 4 * n) (2 ^ 31 + kind * 2 ^ 29 + infe * 2 ^ 28 + port * 2 ^ 8 + far)))

/-- UNBIND_STREAM: VALID becomes 0. -/
def execUnbindStream (q : Nat) (s : State) : Res :=
  fwP 0x41 q s fun i s =>
    let isl := i.fld 32 1
    let n := i.fld 33 1
    if 10 ≤ isl || (s.isl isl).part != q || 15 < n then failR stBadParam s
    else if s.bindBusy (16 * isl + n) then failR stBusy s
    else okR (s.ringSend q isl (.write 1 isl (0xC00 + 4 * n) (lget 0 (s.isl isl).sbind n &&& 0x7FFFFFFF#32).toNat))

/-- NTE_ENDPOINT: MAC (6), VLAN ID (2), PCP (1), IPv4 (4), IPv6 (16) from byte 40 (notes/assumptions/34.md). -/
def execNteEndpoint (q : Nat) (s : State) : Res :=
  fwP 0x42 q s fun i s =>
    let isl := i.fld 32 1
    if 10 ≤ isl || (s.isl isl).part != q || 4095 < i.fld 46 2 || 7 < i.fld 48 1 then failR stBadParam s
    else if (s.nte isl).qps.any (fun e => e.2.stat == 1) then failR stBusy s
    else okR (s.modNte isl (fun n => { n with
      mac := BitVec.ofNat 48 (i.fld 40 6), vlan := i.fld 46 2, pcp := i.fld 48 1, ip4 := BitVec.ofNat 32 (i.fld 49 4),
      ip6 := BitVec.ofNat 128 (i.fld 53 16) }))

/-- The connection settings of QP_CONNECT, packed from byte 40 in the order of Table 15-2 (notes/assumptions/34.md): peer MAC
(6), peer IP (16), peer QPN (3), DSCP, TTL, flow label (3), UDP source port (2), send PSN (3), expected PSN (3), MTU (2),
TIMEOUT, RETRY, RNRRETRY, RNRT, RDDEPTH. A peer IP below 2^32 is an IPv4 address. -/
def qpSettings (i : Item) : QpSet :=
  { mac := BitVec.ofNat 48 (i.fld 40 6), ip := BitVec.ofNat 128 (i.fld 46 16), v6 := decide (2 ^ 32 ≤ i.fld 46 16),
    qpn := i.fld 62 3, dscp := i.fld 65 1, ttl := i.fld 66 1, flow := i.fld 67 3, sport := i.fld 70 2, mtu := i.fld 78 2,
    timeout := i.fld 80 1, retry := i.fld 81 1, rnrretry := i.fld 82 1, rnrt := i.fld 83 1, rddepth := i.fld 84 1 }

/-- Are connection settings in range (Tables 15-1 and 15-2)? -/
def QpSet.ok (q : QpSet) : Bool :=
  (q.mtu == 256 || q.mtu == 512 || q.mtu == 1024 || q.mtu == 2048 || q.mtu == 4096) && decide (q.timeout ≤ 31) && decide (q.retry ≤ 7)
    && decide (q.rnrretry ≤ 7) && decide (q.rnrt ≤ 31) && decide (1 ≤ q.rddepth) && decide (q.rddepth ≤ 8) && decide (q.dscp ≤ 63)
    && decide (q.flow < 2 ^ 20)

/-- QP_CONNECT: RESET to RTS. -/
def execQpConnect (q : Nat) (s : State) : Res :=
  fwP 0x43 q s fun i s =>
    let isl := i.fld 32 1
    let n := i.fld 34 2
    let k := s.qp isl n
    let set := qpSettings i
    if 10 ≤ isl || (s.isl isl).part != q || !set.ok then failR stBadParam s
    else if (s.nte isl).qalloc ≤ n then failR stNoResource s
    else if k.stat != 0 then failR stBusy s
    else
      let sp := i.fld 72 3
      okR (s.setQp isl n
        { sqcfg := k.sqcfg, rqcfg := k.rqcfg, sqprod := k.sqprod, sqcons := k.sqcons, rqprod := k.rqprod, rqcons := k.rqcons,
          err := k.err, stat := 1, set := set, spsn := sp, una := sp, nextPsn := sp, sqNext := k.sqcons, rqNext := k.rqcons,
          retryLeft := set.retry, rnrLeft := set.rnrretry, epsn := i.fld 75 3, rc := s.rMax isl, rt := s.rMax isl,
          alpha := 2 ^ 32, taAt := s.ticks, tiAt := s.ticks })

/-- QP_DISCONNECT: to RESET once no placement of the queue pair is outstanding; rings and ERR stay, the counts return to 0
(notes/assumptions/35.md). -/
def execQpDisconnect (q : Nat) (s : State) : Res :=
  if 10 ≤ q then .fault (.noSuchUnit "partition" q)
  else fwCmdWait 0x44 q s fun i s =>
    let isl := i.fld 32 1
    let n := i.fld 34 2
    if 10 ≤ isl || (s.isl isl).part != q || 512 ≤ n then (some { status := stBadParam }, s)
    else
      let s := s.nteTake isl
      let k := s.qp isl n
      if (s.nte isl).accs.any (fun a => a.qp == n && (a.use == .place || a.use == .recv)) then (none, s)
      else
        (some {}, s.modNte isl (fun m => { m with
          qps := lset m.qps n { sqcfg := k.sqcfg, rqcfg := k.rqcfg, err := k.err },
          accs := m.accs.map (fun a => if a.qp = n then { a with use := .orphan } else a),
          rxq := m.rxq.filter (fun p => p.qp != n) }))

/-- LINK_STATUS: the registers of Table 14-10. -/
def execLinkStatus (s : State) : Res :=
  fwM 0x45 s fun i s =>
    let p := i.fld 32 1
    if 172 ≤ p then failR stBadParam s else dataR ((s.port p).regs.flatMap (fun w => toBytes 4 w.toNat)) s

/-- LINK_TRAIN: training starts at a DOWN or FAILED port; the reply follows its end. -/
def execLinkTrain (s : State) : Res :=
  fwCmdWait 0x46 10 s fun i s =>
    let p := i.fld 32 1
    if i.going then (none, s)
    else if 172 ≤ p || 1 < i.fld 33 1 then (some { status := stBadParam }, s)
    else if (s.port p).st != 0 && (s.port p).st != 3 then (some { status := stBusy }, s)
    else
      let s := (s.modPort p (fun q => { q with full := i.fld 33 1 == 1 })).trainStart p true
      if (s.port p).st = 3 then (some { status := stTimeout }, s)
      else (none, s.setQueue 10 ((s.queue 10).map (fun x => if x.seq = i.seq then { x with going := true } else x)))

/-- LINK_RETIRE: cause COMMAND. -/
def execLinkRetire (s : State) : Res :=
  fwM 0x47 s fun i s =>
    let p := i.fld 32 1
    if 172 ≤ p then failR stBadParam s else okR (if (s.port p).st = 4 then s else s.portRetire p 12)

/-! ## Errors and logs (R163, R169, R494) -/

/-- READ_ERRCNT: CECNT, UECNT, WVSTAT.COUNT, and the link counters of the block's ports; the layout is open. -/
def execReadErrcnt (s : State) : Res :=
  fwM 0x63 s fun i s =>
    let b := i.fld 32 2
    if nBlocks ≤ b || (i.cls = 2 && !s.inPart i.part b) then failR stBadParam s
    else
      let k := s.blk b
      let ps := (List.range 160).filter (fun p => spBlk p == b) ++ (List.range 10).filterMap (fun i => if ppBlk i = b then some (160 + i) else none)
      dataR (Config.replyData 0x63 ([k.cecnt.toNat, k.uecnt.toNat, k.wvstat.toNat / 65536] ++ ps.flatMap (fun p =>
        [p, (s.port p).crcerr.toNat, (s.port p).replay.toNat]))) s

/-- Class of an event (Table 21-2). -/
def eventClass (e : Nat) : Nat :=
  if e = 1 then 0 else if e = 2 || e = 3 then 1 else if e = 4 then 7 else if e < 0x10 then 2 else if e < 0x20 then 3
  else if e < 0x30 then 4 else if e < 0x40 then 5 else if e < 0x50 then 6 else 7

/-- A log record's bytes (Table 21-1). -/
def LogRec.bytes (r : LogRec) : List Byte :=
  toBytes 4 r.seq.toNat ++ toBytes 4 0 ++ toBytes 8 r.time.toNat ++ toBytes 2 r.event ++ toBytes 1 (eventClass r.event)
    ++ toBytes 1 r.flags ++ toBytes 1 r.part ++ toBytes 1 r.kind ++ toBytes 2 r.id ++ toBytes 2 r.coal ++ toBytes 6 0
    ++ padFlits (Config.logData r.event r.data)

/-- READ_LOG: up to COUNT records from FIRST, or from the oldest held where FIRST names none. -/
def execReadLog (s : State) : Res :=
  fwM 0x60 s fun i s =>
    let first := BitVec.ofNat 32 (i.fld 32 4)
    let n := i.fld 36 2
    if n = 0 || 127 < n then failR stBadParam s
    else
      let l := s.aon.log
      let l := if l.any (fun r => r.seq == first) then l.dropWhile (fun r => r.seq != first) else l
      let out := l.take n
      let sq := match out with
        | [] => s.aon.logseq.toNat
        | r :: _ => r.seq.toNat
      ({ detail := sq + s.aon.loglost.toNat * 2 ^ 32, data := out.flatMap LogRec.bytes }, s)

end Sys2Proof.Machine
end

