-- ==== Sys2Proof/Machine/Fp.lean ====
section
/-!
DEFINITION. The number formats of chapter "Number formats and arithmetic rules": layouts, values, rounding, and the
exact operations rounded once (R56 to R68). Bit patterns are natural numbers here; every function computes.
-/

namespace Sys2Proof.Machine.Fp

/-- A format's layout (Table 03-1). `ieee`: it has infinities, signed zeros and NaN payloads (R58); the other
formats have one NaN code and one zero (R57). -/
structure Fmt where
  ebits : Nat
  mbits : Nat
  bias : Nat
  ieee : Bool
deriving DecidableEq, Repr

def fp64 : Fmt := ⟨11, 52, 1023, true⟩
def fp32 : Fmt := ⟨8, 23, 127, true⟩
def h16 : Fmt := ⟨5, 10, 15, true⟩
def w16 : Fmt := ⟨8, 7, 127, true⟩
def v8 : Fmt := ⟨4, 3, 7, false⟩
def g8 : Fmt := ⟨5, 2, 15, false⟩
def q4 : Fmt := ⟨2, 1, 1, false⟩

/-- Bits of a code. -/
def Fmt.width (f : Fmt) : Nat := 1 + f.ebits + f.mbits

/-- A value: a NaN with its sign and its fraction left-aligned in 52 bits, an infinity, or ±m × 2^e. -/
inductive FVal
  | nan (neg : Bool) (frac : Nat)
  | inf (neg : Bool)
  | fin (neg : Bool) (m : Nat) (e : Int)
deriving DecidableEq, Repr

/-- The flags in FPFLAGS positions (Table 04-10): NV 4, DZ 3, OF 2, UF 1, NX 0. -/
abbrev Flags := BitVec 5

def NV : Flags := 0b10000
def DZ : Flags := 0b01000
def OF : Flags := 0b00100
def UF : Flags := 0b00010
def NX : Flags := 0b00001

/-- Rounding directions: the four of R60, and ties to away for FRINT (R537). -/
inductive RM | rne | rtz | rup | rdn | rna
deriving DecidableEq, Repr

/-- FPCR.RM (Table 04-9). -/
def RM.ofBits (b : BitVec 2) : RM :=
  if b = 0 then .rne else if b = 1 then .rtz else if b = 2 then .rup else .rdn

/-- What an overflow returns: the IEEE result by rounding direction (R61), or SAT or NSAT (R65). -/
inductive Ovf | ieee | sat | nsat
deriving DecidableEq, Repr

/-- Position of the quiet bit in a 52-bit left-aligned fraction. -/
def quiet : Nat := 2 ^ 51

/-- The canonical quiet NaN (R58, Table 03-3). -/
def FVal.cnan : FVal := .nan false quiet

def FVal.isNan : FVal → Bool
  | .nan _ _ => true
  | _ => false

/-- A signalling NaN has its highest fraction bit 0 (R58). -/
def FVal.isSnan : FVal → Bool
  | .nan _ fr => fr < quiet
  | _ => false

def FVal.isInf : FVal → Bool
  | .inf _ => true
  | _ => false

def FVal.isZero : FVal → Bool
  | .fin _ m _ => m == 0
  | _ => false

def FVal.neg : FVal → Bool
  | .nan n _ => n
  | .inf n => n
  | .fin n _ _ => n

def FVal.negate : FVal → FVal
  | .nan n fr => .nan n fr
  | .inf n => .inf (!n)
  | .fin n m e => .fin (!n) m e

/-- Magnitude of a value, sign dropped. -/
def FVal.abs : FVal → FVal
  | .nan n fr => .nan n fr
  | .inf _ => .inf false
  | .fin _ m e => .fin false m e

/-- Quieting sets the highest fraction bit (R62). -/
def FVal.quieted : FVal → FVal
  | .nan n fr => .nan n (if fr < quiet then fr + quiet else fr)
  | v => v

/-- The value of a code (R56, R57). -/
def decode (f : Fmt) (b : Nat) : FVal :=
  let neg := b / 2 ^ (f.ebits + f.mbits) % 2 == 1
  let e := b / 2 ^ f.mbits % 2 ^ f.ebits
  let m := b % 2 ^ f.mbits
  if f.ieee then
    if e = 2 ^ f.ebits - 1 then
      if m = 0 then .inf neg else .nan neg (m * 2 ^ (52 - f.mbits))
    else if e = 0 then .fin neg m (1 - (f.bias : Int) - f.mbits)
    else .fin neg (2 ^ f.mbits + m) ((e : Int) - f.bias - f.mbits)
  else if neg && e == 0 && m == 0 then .cnan
  else if e = 0 then .fin neg m (1 - (f.bias : Int) - f.mbits)
  else .fin neg (2 ^ f.mbits + m) ((e : Int) - f.bias - f.mbits)

/-- The largest exponent field of a finite code. -/
def Fmt.maxE (f : Fmt) : Nat := if f.ieee then 2 ^ f.ebits - 2 else 2 ^ f.ebits - 1

def Fmt.signBit (f : Fmt) (neg : Bool) : Nat := if neg then 2 ^ (f.ebits + f.mbits) else 0

/-- The code of the signed maximum finite value. -/
def Fmt.maxFin (f : Fmt) (neg : Bool) : Nat := f.signBit neg + f.maxE * 2 ^ f.mbits + (2 ^ f.mbits - 1)

/-- The code of a signed infinity (ieee formats only). -/
def Fmt.infCode (f : Fmt) (neg : Bool) : Nat := f.signBit neg + (2 ^ f.ebits - 1) * 2 ^ f.mbits

/-- The code of a zero; the formats without a signed zero have one code (R57, R64). -/
def Fmt.zeroCode (f : Fmt) (neg : Bool) : Nat := if f.ieee then f.signBit neg else 0

/-- The code of a NaN: sign kept, the highest payload bits kept, quieted (R62, R63, R66); the sign-only code in the
formats with one NaN (R57). -/
def Fmt.nanCode (f : Fmt) (neg : Bool) (frac : Nat) : Nat :=
  if f.ieee then
    let fr := frac / 2 ^ (52 - f.mbits)
    f.signBit neg + (2 ^ f.ebits - 1) * 2 ^ f.mbits + (if fr < 2 ^ (f.mbits - 1) then fr + 2 ^ (f.mbits - 1) else fr)
  else 2 ^ (f.ebits + f.mbits)

/-- The canonical NaN's code. -/
def Fmt.cnanCode (f : Fmt) : Nat := f.nanCode false quiet

/-- Number of bits of a natural number. -/
def len (m : Nat) : Nat := if m = 0 then 0 else Nat.log2 m + 1

/-- Does a magnitude with quotient `q` and remainder `r` of `2^k` round up? (R60, R64) -/
def roundsUp (rm : RM) (neg : Bool) (q r half : Nat) : Bool :=
  match rm with
  | .rne => r > half || (r == half && q % 2 == 1)
  | .rna => r ≥ half
  | .rtz => false
  | .rup => !neg && r > 0
  | .rdn => neg && r > 0

/-- Rounds `m × 2^e` to a multiple of `2^qe`: the multiple, and whether the result is inexact. -/
def roundAt (rm : RM) (neg : Bool) (m : Nat) (e qe : Int) : Nat × Bool :=
  if qe ≤ e then (m * 2 ^ (e - qe).toNat, false)
  else
    let k := (qe - e).toNat
    let q := m / 2 ^ k
    let r := m % 2 ^ k
    (if roundsUp rm neg q r (2 ^ (k - 1)) then q + 1 else q, r != 0)

/-- The result of an overflow: IEEE by direction (R61), or the saturation mode's (R65). -/
def overflowCode (f : Fmt) (rm : RM) (ov : Ovf) (neg : Bool) : Nat :=
  match ov with
  | .sat => f.maxFin neg
  | .nsat => if f.ieee then f.infCode neg else f.cnanCode
  | .ieee =>
    match rm with
    | .rtz => f.maxFin neg
    | .rup => if neg then f.maxFin neg else f.infCode neg
    | .rdn => if neg then f.infCode neg else f.maxFin neg
    | _ => f.infCode neg

/-- Rounds the exact value ±m × 2^e once into a format (R60, R61, R64, R65). Tininess is detected after rounding with
unbounded exponent; underflow needs a tiny and inexact result. -/
def roundFin (f : Fmt) (rm : RM) (ov : Ovf) (neg : Bool) (m : Nat) (e : Int) : Nat × Flags :=
  if m = 0 then (f.zeroCode neg, 0)
  else
    let lead : Int := e + len m - 1
    let emin : Int := 1 - (f.bias : Int)
    let unb := (roundAt rm neg m e (lead - f.mbits)).1
    let tiny : Bool := decide (lead + (if unb ≥ 2 ^ (f.mbits + 1) then 1 else 0) < emin)
    let qe : Int := max lead emin - f.mbits
    let r := roundAt rm neg m e qe
    let (sig, q) := if r.1 ≥ 2 ^ (f.mbits + 1) then (r.1 / 2, qe + 1) else (r.1, qe)
    let fl : Flags := (if r.2 then NX else 0) ||| (if tiny && r.2 then UF else 0)
    if sig = 0 then (f.zeroCode neg, fl)
    else if sig < 2 ^ f.mbits then (f.signBit neg + sig, fl)
    else
      let ef : Int := q + f.mbits + f.bias
      if ef > f.maxE then (overflowCode f rm ov neg, OF ||| NX)
      else (f.signBit neg + ef.toNat * 2 ^ f.mbits + (sig - 2 ^ f.mbits), fl)

/-- Writes a value into a format: NaN quieted (invalid when signalling), infinity kept or treated as R66 says, finite
values rounded once. -/
def encode (f : Fmt) (rm : RM) (ov : Ovf) : FVal → Nat × Flags
  | .nan neg fr => (f.nanCode neg fr, if fr < quiet then NV else 0)
  | .inf neg =>
    if f.ieee then (f.infCode neg, 0)
    else ((match ov with | .nsat => f.cnanCode | _ => f.maxFin neg), OF)
  | .fin neg m e => roundFin f rm ov neg m e

/-- Magnitudes on one exponent, and that exponent. -/
def align (m1 : Nat) (e1 : Int) (m2 : Nat) (e2 : Int) : Nat × Nat × Int :=
  let e := min e1 e2
  (m1 * 2 ^ (e1 - e).toNat, m2 * 2 ^ (e2 - e).toNat, e)

/-- The exact sum of two finite values; an exact zero of unlike terms is −0 only when rounding toward negative. -/
def addFin (rm : RM) (n1 : Bool) (m1 : Nat) (e1 : Int) (n2 : Bool) (m2 : Nat) (e2 : Int) : FVal :=
  let (a, b, e) := align m1 e1 m2 e2
  if n1 = n2 then .fin n1 (a + b) e
  else if a = b then .fin (rm == .rdn) 0 e
  else if a > b then .fin n1 (a - b) e
  else .fin n2 (b - a) e

/-- The first NaN of the operands in order, quieted; invalid when any of them signals (R62). -/
def nanOf : List FVal → Option (FVal × Flags)
  | [] => none
  | v :: vs =>
    let s : Flags := if (v :: vs).any FVal.isSnan then NV else 0
    if v.isNan then some (v.quieted, s)
    else match nanOf vs with
      | some (w, _) => some (w, s)
      | none => none

/-- The exact sum, as a value and the flags of the operands. -/
def addV (rm : RM) (a b : FVal) : FVal × Flags :=
  match nanOf [a, b] with
  | some r => r
  | none =>
    match a, b with
    | .inf n, .inf n' => if n = n' then (.inf n, 0) else (.cnan, NV)
    | .inf n, _ => (.inf n, 0)
    | _, .inf n => (.inf n, 0)
    | .fin n m e, .fin n' m' e' => (addFin rm n m e n' m' e', 0)
    | _, _ => (.cnan, 0)

/-- The exact product. -/
def mulV (a b : FVal) : FVal × Flags :=
  match nanOf [a, b] with
  | some r => r
  | none =>
    let neg := a.neg != b.neg
    match a, b with
    | .fin _ m e, .fin _ m' e' => (.fin neg (m * m') (e + e'), 0)
    | _, _ => if a.isZero || b.isZero then (.cnan, NV) else (.inf neg, 0)

/-- The exact ±(a × b) ± c (R62, R92): `np` negates the product, `nc` the addend; a NaN operand is never negated. -/
def fmaV (rm : RM) (np nc : Bool) (a b c : FVal) : FVal × Flags :=
  let zi := (a.isZero && b.isInf) || (a.isInf && b.isZero)
  if zi then (if c.isNan then (c.quieted, NV) else (.cnan, NV))
  else match nanOf [a, b, c] with
    | some r => r
    | none =>
      let (p, _) := mulV a b
      addV rm (if np then p.negate else p) (if nc then c.negate else c)

/-- Integer square root by bits, from bit `n` down. -/
def isqrtGo : Nat → Nat → Nat → Nat
  | 0, _, r => r
  | n + 1, x, r =>
    let t := r + 2 ^ n
    isqrtGo n x (if t * t ≤ x then t else r)

def isqrt (x : Nat) : Nat := isqrtGo (len x / 2 + 1) x 0

/-- A quotient of finite values with at least 70 correct bits and a sticky bit below them, so that rounding it once
rounds the exact quotient. -/
def divFin (neg : Bool) (m1 : Nat) (e1 : Int) (m2 : Nat) (e2 : Int) : FVal :=
  let k := 70 + len m2
  let n := m1 * 2 ^ k
  .fin neg (2 * (n / m2) + (if n % m2 = 0 then 0 else 1)) (e1 - e2 - k - 1)

/-- Division (R59, R61). -/
def divV (a b : FVal) : FVal × Flags :=
  match nanOf [a, b] with
  | some r => r
  | none =>
    let neg := a.neg != b.neg
    match a, b with
    | .fin _ m e, .fin _ m' e' =>
      if m' = 0 then (if m = 0 then (.cnan, NV) else (.inf neg, DZ))
      else if m = 0 then (.fin neg 0 0, 0)
      else (divFin neg m e m' e', 0)
    | .inf _, .inf _ => (.cnan, NV)
    | .inf _, _ => (.inf neg, 0)
    | _, _ => (.fin neg 0 0, 0)

/-- Square root (R59). -/
def sqrtV (a : FVal) : FVal × Flags :=
  match nanOf [a] with
  | some r => r
  | none =>
    match a with
    | .fin neg m e =>
      if m = 0 then (.fin neg 0 e, 0)
      else if neg then (.cnan, NV)
      else
        let m' := if e % 2 = 0 then m else 2 * m
        let e' := if e % 2 = 0 then e else e - 1
        let x := m' * 2 ^ 140
        let s := isqrt x
        (.fin false (2 * s + (if s * s = x then 0 else 1)) (e' / 2 - 71), 0)
    | .inf neg => if neg then (.cnan, NV) else (.inf false, 0)
    | v => (v, 0)

/-- Rounds a value's operation once into a format, with the operation's own flags. -/
def finish (f : Fmt) (rm : RM) (ov : Ovf) (r : FVal × Flags) : Nat × Flags :=
  let (b, fl) := encode f rm ov r.1
  (b, fl ||| r.2)

def add (f : Fmt) (rm : RM) (a b : Nat) : Nat × Flags := finish f rm .ieee (addV rm (decode f a) (decode f b))

/-- a − b: a NaN operand keeps its sign (R62). -/
def sub (f : Fmt) (rm : RM) (a b : Nat) : Nat × Flags :=
  finish f rm .ieee (addV rm (decode f a) (decode f b).negate)

def mul (f : Fmt) (rm : RM) (a b : Nat) : Nat × Flags := finish f rm .ieee (mulV (decode f a) (decode f b))
def div (f : Fmt) (rm : RM) (a b : Nat) : Nat × Flags := finish f rm .ieee (divV (decode f a) (decode f b))
def sqrt (f : Fmt) (rm : RM) (a : Nat) : Nat × Flags := finish f rm .ieee (sqrtV (decode f a))

def fma (f : Fmt) (rm : RM) (np nc : Bool) (a b c : Nat) : Nat × Flags :=
  finish f rm .ieee (fmaV rm np nc (decode f a) (decode f b) (decode f c))

/-- Order of two values that are not NaN; zeros compare equal. -/
def ltV : FVal → FVal → Bool
  | .inf n, .inf n' => n && !n'
  | .inf n, _ => n
  | _, .inf n => !n
  | .fin n m e, .fin n' m' e' =>
    let (a, b, _) := align m e m' e'
    if n then (if n' then b < a else a != 0 || b != 0) else (if n' then false else a < b)
  | _, _ => false

def eqV (a b : FVal) : Bool := !a.isNan && !b.isNan && !ltV a b && !ltV b a

/-- −0 before +0, as minimumNumber and maximumNumber order them. -/
def ltZ (a b : FVal) : Bool := ltV a b || (eqV a b && a.neg && !b.neg)

/-- minimumNumber, or maximumNumber with `mx`: the number when exactly one operand is NaN; the first NaN quieted when
both are; invalid for a signalling NaN (R59, R62, R67). -/
def minMaxV (mx : Bool) (a b : FVal) : FVal × Flags :=
  let s : Flags := if a.isSnan || b.isSnan then NV else 0
  if a.isNan then (if b.isNan then (a.quieted, s) else (b, s))
  else if b.isNan then (a, s)
  else if mx then (if ltZ a b then b else a, 0)
  else (if ltZ b a then b else a, 0)

def minMax (f : Fmt) (mx : Bool) (a b : Nat) : Nat × Flags :=
  finish f .rne .ieee (minMaxV mx (decode f a) (decode f b))

/-- The comparison predicates of R537: 0 EQ, quiet; 1 LT and 2 LE, signalling. -/
def cmpV (pred : Nat) (a b : FVal) : Bool × Flags :=
  if a.isNan || b.isNan then
    (false, if pred != 0 || a.isSnan || b.isSnan then NV else 0)
  else (if pred = 0 then eqV a b else if pred = 1 then ltV a b else ltV a b || eqV a b, 0)

def cmp (f : Fmt) (pred : Nat) (a b : Nat) : Bool × Flags := cmpV pred (decode f a) (decode f b)

/-- A signalling NaN source raises invalid; its payload is carried and quieted (R63, R66). A NaN of a format with one
code arrives canonical (R68). -/
def convert (src dst : Fmt) (rm : RM) (ov : Ovf) (b : Nat) : Nat × Flags := encode dst rm ov (decode src b)

/-- Conversion to an integer of `w` bits (R63): the most positive integer for NaN and positive overflow, the most
negative for negative overflow. -/
def toInt (w : Nat) (signed : Bool) (rm : RM) (v : FVal) : Int × Flags :=
  let lo : Int := if signed then -(2 ^ (w - 1) : Nat) else 0
  let hi : Int := if signed then (2 ^ (w - 1) : Nat) - 1 else (2 ^ w : Nat) - 1
  match v with
  | .nan _ _ => (hi, NV)
  | .inf n => (if n then lo else hi, NV)
  | .fin n m e =>
    let (q, ix) := roundAt rm n m e 0
    let x : Int := if n then -(q : Int) else q
    if x > hi then (hi, NV) else if x < lo then (lo, NV) else (x, if ix then NX else 0)

/-- Conversion from an integer. -/
def ofInt (f : Fmt) (rm : RM) (x : Int) : Nat × Flags := roundFin f rm .ieee (decide (x < 0)) x.natAbs 0

/-- roundToIntegral in a format; `exact` raises inexact (R537). -/
def roundInt (f : Fmt) (rm : RM) (exact : Bool) (b : Nat) : Nat × Flags :=
  match decode f b with
  | .fin n m e =>
    let (q, ix) := roundAt rm n m e 0
    ((roundFin f .rne .ieee n q 0).1, if exact && ix then NX else 0)
  | v => encode f rm .ieee v

/-- FKIND: the one-hot class word in the order of R537. -/
def classify (f : Fmt) (b : Nat) : Nat :=
  match decode f b with
  | .nan _ fr => if fr < quiet then 1 else 2
  | .inf n => if n then 4 else 512
  | .fin n m _ =>
    if m = 0 then (if n then 32 else 64)
    else if m < 2 ^ f.mbits then (if n then 16 else 128)
    else (if n then 8 else 256)

end Sys2Proof.Machine.Fp
end

