-- ==== Sys2Proof/Machine/Accum.lean ====
section
/-!
DEFINITION. Arithmetic shared by the lane units, the piazza lanes and the MAC blocks: type codes, element vectors,
rounding per destination format, AMAX, block scales, SPLIT3 and the accumulation sequence (R64 to R77; Table 05-2).
-/

namespace Sys2Proof.Machine.Fp

/-- Type codes (Table 05-2); 0b111 is none. -/
def ofCode (t : BitVec 3) : Option Fmt :=
  match t.toNat with
  | 0 => some fp64
  | 1 => some fp32
  | 2 => some h16
  | 3 => some w16
  | 4 => some v8
  | 5 => some g8
  | 6 => some q4
  | _ => none

/-- FP64 and FP32 follow R59 to R63, the others R64 to R67. -/
def Fmt.wide (f : Fmt) : Bool := f.mbits ≥ 23

/-- Rounding direction and overflow rule of a result in a format: the wide formats by FPCR.RM, the short ones to nearest
even under FPCR.SATM (R60, R65). -/
def Fmt.rmOf (f : Fmt) (rm : RM) : RM := if f.wide then rm else .rne
def Fmt.ovOf (f : Fmt) (ov : Ovf) : Ovf := if f.wide then .ieee else ov

/-- Rounds a value into a format under a core's FPCR. -/
def put (f : Fmt) (rm : RM) (ov : Ovf) (r : FVal × Flags) : Nat × Flags := finish f (f.rmOf rm) (f.ovOf ov) r

/-- Element `e` of width `w` of a register image. -/
def elem (v w e : Nat) : Nat := v / 2 ^ (w * e) % 2 ^ w

/-- Builds `n` elements of width `w`, with the OR of their flags. -/
def build (w : Nat) (f : Nat → Nat × Flags) : Nat → Nat × Flags
  | 0 => (0, 0)
  | n + 1 =>
    let r := build w f n
    let x := f n
    (r.1 + x.1 % 2 ^ w * 2 ^ (w * n), r.2 ||| x.2)

/-- Replaces `n` bits from bit `lo`. -/
def splice (v lo n x : Nat) : Nat := v % 2 ^ lo + x % 2 ^ n * 2 ^ lo + v / 2 ^ (lo + n) * 2 ^ (lo + n)

/-- The arithmetic of Table 05-4 and Table 10-8: 0 ADD, 1 SUB, 2 MUL, 3 FMA, 4 FMS, 5 FNMA, 6 MIN, 7 MAX. -/
def arith (op : Nat) (rm : RM) (a b c : FVal) : FVal × Flags :=
  match op with
  | 0 => addV rm a b
  | 1 => addV rm a b.negate
  | 2 => mulV a b
  | 3 => fmaV rm false false a b c
  | 4 => fmaV rm false true a b c
  | 5 => fmaV rm true false a b c
  | 6 => minMaxV false a b
  | _ => minMaxV true a b

/-- One elementwise operation 0 to 10: arithmetic rounded once into `f`, or a comparison mask (R117). -/
def elemOp (op : Nat) (f fa fb fc : Fmt) (rm : RM) (ov : Ovf) (a b c : Nat) : Nat × Flags :=
  if op < 8 then put f rm ov (arith op (f.rmOf rm) (decode fa a) (decode fb b) (decode fc c))
  else
    let r := cmpV (op - 8) (decode fa a) (decode fb b)
    (if r.1 then 2 ^ f.width - 1 else 0, r.2)

/-- Multiplies exactly by 2^k. -/
def FVal.scale (v : FVal) (k : Int) : FVal :=
  match v with
  | .fin n m e => .fin n m (e + k)
  | x => x

/-! ## AMAX (R71) -/

/-- The FP32 magnitude bits of an element, rounded toward +∞; none for NaN. -/
def amaxCand (v : FVal) : Option Nat :=
  match v with
  | .nan _ _ => none
  | .inf _ => some 0x7F800000
  | .fin _ m e => some (roundFin fp32 .rup .ieee false m e).1

/-- Updates an accumulator (NaN bit, magnitude) with a list of elements. -/
def amaxAll (nan : Bool) (mag : Nat) (vs : List FVal) : Bool × Nat :=
  vs.foldl (fun r v => match amaxCand v with | none => (true, r.2) | some m => (r.1, max r.2 m)) (nan, mag)

/-! ## Block scales (R70) -/

/-- Is |v| × 2^(127 − c) at most the format's maximum finite value? -/
def fits (f : Fmt) (v : FVal) (c : Nat) : Bool :=
  match v with
  | .fin _ m e => !ltV (decode f (f.maxFin false)) (.fin false m (e + 127 - c))
  | _ => false

/-- The scale byte of AUTO for a group, from the source format and the saturation mode: 0x7F for elements that are all zero, else
the smallest byte that the largest magnitude of the elements other than NaN fits under, 0 included. DESIGN CHOICE
(notes/assumptions/92.md): under SAT an infinity counts as the source format's maximum finite value, and a group of NaNs alone
gets 0x7F. -/
def autoScale (src dst : Fmt) (ov : Ovf) (vs : List FVal) : Nat :=
  let inf := vs.any (·.isInf)
  if inf && ov == .nsat then 0xFF
  else
    let mags := vs.filterMap (fun v => match v with
      | .nan _ _ => none
      | .inf _ => some (decode src (src.maxFin false))
      | .fin _ m e => some (.fin false m e))
    match mags with
    | [] => 0x7F
    | v :: rest =>
      let amax := rest.foldl (fun a b => if ltV a b then b else a) v
      if vs.all (·.isZero) then 0x7F else ((List.range 0xFF).find? (fits dst amax)).getD 0xFE

/-! ## SPLIT3 (R77) -/

/-- The flags of a special source element (Table 03-5): an infinity into a format without one overflows, a signalling NaN is
invalid. -/
def specialFlags (dst : Fmt) (v : FVal) : Flags :=
  if v.isSnan then NV else if v.isInf && !dst.ieee then OF else 0

/-- A rounded piece as a value, its code and the flags of its rounding. -/
def piece (dst : Fmt) (v : FVal) : FVal × Nat × Flags :=
  let r := roundFin dst .rne .ieee v.neg (match v with | .fin _ m _ => m | _ => 0) (match v with | .fin _ _ e => e | _ => 0)
  (decode dst r.1, r.1, r.2)

/-- The pieces h, m, l and the flags. An infinite source follows the formula of R77: x − h is ∞ − ∞
(notes/assumptions/21.md). A piece is inexact only when bits of x are lost. DESIGN CHOICE (notes/assumptions/93.md): an overflow
of h raises overflow alone. -/
def split3 (src dst : Fmt) (x : Nat) : (Nat × Nat × Nat) × Flags :=
  match decode src x with
  | .nan _ fr => ((dst.cnanCode, dst.cnanCode, dst.cnanCode), if fr < quiet then NV else 0)
  | .inf n => ((dst.infCode n, dst.cnanCode, dst.cnanCode), NV)
  | .fin n m e =>
    if m = 0 then ((dst.zeroCode n, dst.zeroCode n, dst.zeroCode n), 0)
    else
      let v := FVal.fin n m e
      let (hv, h, _) := piece dst v
      if hv.isInf then ((h, 0, 0), OF)
      else
        let r := (addV .rne v hv.negate).1
        let (mv, mc, _) := piece dst r
        let r2 := (addV .rne r mv.negate).1
        let (_, l, lf) := piece dst r2
        ((h, mc, l), if lf &&& NX != 0 then UF ||| NX else 0)

/-! ## Accumulation (R72 to R75) -/

/-- Rounds to nearest even into an accumulator format, flushing a result below the minimum normal (R73). -/
def roundAcc (f : Fmt) (v : FVal) : Nat × Flags :=
  match v with
  | .nan _ _ => (f.cnanCode, 0)
  | .inf n => (f.infCode n, 0)
  | .fin n m e =>
    if m = 0 then (f.zeroCode n, 0)
    else
      let lead : Int := e + len m - 1
      let unb := (roundAt .rne n m e (lead - f.mbits)).1
      let top : Int := lead + (if unb ≥ 2 ^ (f.mbits + 1) then 1 else 0)
      if top < 1 - (f.bias : Int) then (f.zeroCode n, UF ||| NX) else roundFin f .rne .ieee n m e

/-- The first rounding of a product with block scales 2^k (R74, R75). `single`: the operands are FP32, whose signalling
NaNs raise invalid. -/
def product (f : Fmt) (single : Bool) (a b : FVal) (k : Int) : Nat × Flags :=
  if a.isNan || b.isNan then (f.cnanCode, if single && (a.isSnan || b.isSnan) then NV else 0)
  else
    let r := mulV a b
    let (c, fl) := roundAcc f (r.1.scale k)
    (c, fl ||| r.2)

/-- acc + p, rounded once and flushed (R72, R73, R75). -/
def accumulate (f : Fmt) (acc p : Nat) : Nat × Flags :=
  let a := decode f acc
  let b := decode f p
  if a.isNan || b.isNan then (f.cnanCode, 0)
  else
    let r := addV .rne a b
    let (c, fl) := roundAcc f r.1
    (c, fl ||| r.2)

/-- The sequence of R72 over the products of one output; with `zero` the first product becomes the accumulator (R244). -/
def accSeq (f : Fmt) (zero : Bool) (acc : Nat) (ps : List (Nat × Flags)) : Nat × Flags :=
  match zero, ps with
  | true, p :: rest => rest.foldl (fun r q => let (c, fl) := accumulate f r.1 q.1; (c, r.2 ||| fl ||| q.2)) p
  | _, ps => ps.foldl (fun r q => let (c, fl) := accumulate f r.1 q.1; (c, r.2 ||| fl ||| q.2)) (acc, 0)

end Sys2Proof.Machine.Fp
end

