-- ==== Sys2Proof/Machine/FpScalar.lean ====
section
/-!
DEFINITION. Scalar floating point: majors 0x18 to 0x1B (R59 to R63, R84, R92, R537; Table 04-14). Flags only ever set in
FPFLAGS (Table 04-10).
-/

namespace Sys2Proof.Machine

/-- The rounding direction of a core (Table 04-9). -/
def Cobble.dir (k : Cobble) : Fp.RM := Fp.RM.ofBits k.rm

/-- The saturation mode of a core (R65). -/
def Cobble.ovf (k : Cobble) : Fp.Ovf := if k.satm then .sat else .nsat

/-- Raises flags. -/
def Cobble.raise (k : Cobble) (fl : Fp.Flags) : Cobble := { k with fpflags := k.fpflags ||| fl }

/-- The format a 2-bit field names: 0 FP64, 1 FP32. -/
def sfmt (fmt : BitVec 2) : Fp.Fmt := if fmt = 0 then Fp.fp64 else Fp.fp32

/-- An f register read in a format: FP32 reads bits [31:0] alone (R84). -/
def Cobble.fpIn (k : Cobble) (fmt : BitVec 2) (f : BitVec 6) : Nat :=
  if fmt = 0 then (k.fp f).toNat else (k.fp f).toNat % 2 ^ 32

/-- A value as an f register holds it (R84). -/
def fpReg (fmt : BitVec 2) (v : Nat) : W64 := if fmt = 0 then BitVec.ofNat 64 v else box32 v

def Cobble.setFpIn (k : Cobble) (fmt : BitVec 2) (f : BitVec 6) (v : Nat) : Cobble := k.setFp f (fpReg fmt v)

/-- The word of a major 0x18 instruction. -/
def wFp (op : Nat) (rd rs1 rs2 : BitVec 6) (fmt : BitVec 2) : W32 := wRR 0x18 rd rs1 rs2 (4 * op + fmt.toNat)

/-- A member of major 0x18: format codes 2 and 3 are illegal (R536), then its own check, then its effect. -/
def fpOp (op c : Nat) (rd rs1 rs2 : BitVec 6) (fmt : BitVec 2) (ints fps : List (BitVec 6)) (ok : Bool)
    (f : Cobble → Cobble) (s : State) : Res :=
  issue c (wFp op rd rs1 rs2 fmt) (if 2 ≤ fmt.toNat || !ok then [] else ints) (if 2 ≤ fmt.toNat || !ok then [] else fps)
    (fun k s => if 2 ≤ fmt.toNat || !ok then s.illegal c (wFp op rd rs1 rs2 fmt) else s.retire c (f k)) s

/-- A two-operand operation into an f register. -/
def fpBin (op c : Nat) (rd rs1 rs2 : BitVec 6) (fmt : BitVec 2) (f : Fp.Fmt → Fp.RM → Nat → Nat → Nat × Fp.Flags)
    (s : State) : Res :=
  fpOp op c rd rs1 rs2 fmt [] [rd, rs1, rs2] true
    (fun k =>
      let r := f (sfmt fmt) k.dir (k.fpIn fmt rs1) (k.fpIn fmt rs2)
      (k.setFpIn fmt rd r.1).raise r.2) s

def execFadd (c : Nat) (rd rs1 rs2 : BitVec 6) (fmt : BitVec 2) (s : State) : Res := fpBin 0 c rd rs1 rs2 fmt Fp.add s
def execFsub (c : Nat) (rd rs1 rs2 : BitVec 6) (fmt : BitVec 2) (s : State) : Res := fpBin 1 c rd rs1 rs2 fmt Fp.sub s
def execFmul (c : Nat) (rd rs1 rs2 : BitVec 6) (fmt : BitVec 2) (s : State) : Res := fpBin 2 c rd rs1 rs2 fmt Fp.mul s
def execFdiv (c : Nat) (rd rs1 rs2 : BitVec 6) (fmt : BitVec 2) (s : State) : Res := fpBin 3 c rd rs1 rs2 fmt Fp.div s

/-- FSQRT: its rs2 field must be 0. -/
def execFsqrt (c : Nat) (rd rs1 rs2 : BitVec 6) (fmt : BitVec 2) (s : State) : Res :=
  fpOp 4 c rd rs1 rs2 fmt [] [rd, rs1] (rs2 == 0)
    (fun k =>
      let r := Fp.sqrt (sfmt fmt) k.dir (k.fpIn fmt rs1)
      (k.setFpIn fmt rd r.1).raise r.2) s

def execFmin (c : Nat) (rd rs1 rs2 : BitVec 6) (fmt : BitVec 2) (s : State) : Res :=
  fpBin 5 c rd rs1 rs2 fmt (fun f _ a b => Fp.minMax f false a b) s
def execFmax (c : Nat) (rd rs1 rs2 : BitVec 6) (fmt : BitVec 2) (s : State) : Res :=
  fpBin 6 c rd rs1 rs2 fmt (fun f _ a b => Fp.minMax f true a b) s

/-- A comparison into an integer register. -/
def fpCmp (op pred c : Nat) (rd rs1 rs2 : BitVec 6) (fmt : BitVec 2) (s : State) : Res :=
  fpOp op c rd rs1 rs2 fmt [rd] [rs1, rs2] true
    (fun k =>
      let r := Fp.cmp (sfmt fmt) pred (k.fpIn fmt rs1) (k.fpIn fmt rs2)
      (k.setInt rd (if r.1 then 1 else 0)).raise r.2) s

def execFcmpEq (c : Nat) (rd rs1 rs2 : BitVec 6) (fmt : BitVec 2) (s : State) : Res := fpCmp 7 0 c rd rs1 rs2 fmt s
def execFcmpLt (c : Nat) (rd rs1 rs2 : BitVec 6) (fmt : BitVec 2) (s : State) : Res := fpCmp 8 1 c rd rs1 rs2 fmt s
def execFcmpLe (c : Nat) (rd rs1 rs2 : BitVec 6) (fmt : BitVec 2) (s : State) : Res := fpCmp 9 2 c rd rs1 rs2 fmt s

/-- FKIND: its rs2 field must be 0. -/
def execFkind (c : Nat) (rd rs1 rs2 : BitVec 6) (fmt : BitVec 2) (s : State) : Res :=
  fpOp 0xA c rd rs1 rs2 fmt [rd] [rs1] (rs2 == 0)
    (fun k => k.setInt rd (BitVec.ofNat 64 (Fp.classify (sfmt fmt) (k.fpIn fmt rs1)))) s

/-- FMOV: rs2 selects the direction. -/
def execFmov (c : Nat) (rd rs1 rs2 : BitVec 6) (fmt : BitVec 2) (s : State) : Res :=
  if rs2 = 0 then
    fpOp 0xB c rd rs1 rs2 fmt [] [rd, rs1] true (fun k => k.setFpIn fmt rd (k.fpIn fmt rs1)) s
  else if rs2 = 1 then
    fpOp 0xB c rd rs1 rs2 fmt [rs1] [rd] true (fun k => k.setFpIn fmt rd (k.int rs1).toNat) s
  else
    fpOp 0xB c rd rs1 rs2 fmt [rd] [rs1] (rs2 == 2) (fun k => k.setInt rd (BitVec.ofNat 64 (k.fpIn fmt rs1))) s

/-- FCVT.F: from the other format; its rs2 field must be 0. -/
def execFcvtF (c : Nat) (rd rs1 rs2 : BitVec 6) (fmt : BitVec 2) (s : State) : Res :=
  fpOp 0xC c rd rs1 rs2 fmt [] [rd, rs1] (rs2 == 0)
    (fun k =>
      let other : BitVec 2 := if fmt = 0 then 1 else 0
      let r := Fp.convert (sfmt other) (sfmt fmt) k.dir .ieee (k.fpIn other rs1)
      (k.setFpIn fmt rd r.1).raise r.2) s

/-- The integer type that rs2 names: width and signedness; none where it is reserved. -/
def intType (f : BitVec 6) : Option (Nat × Bool) :=
  match f.toNat with
  | 0 => some (32, true)
  | 1 => some (32, false)
  | 2 => some (64, true)
  | 3 => some (64, false)
  | _ => none

def execFcvtFi (c : Nat) (rd rs1 rs2 : BitVec 6) (fmt : BitVec 2) (s : State) : Res :=
  fpOp 0xD c rd rs1 rs2 fmt [rd] [rs1] (intType rs2).isSome
    (fun k =>
      let t := (intType rs2).getD (64, true)
      let r := Fp.toInt t.1 t.2 k.dir (Fp.decode (sfmt fmt) (k.fpIn fmt rs1))
      (k.setInt rd (BitVec.ofInt 64 r.1)).raise r.2) s

/-- The value of an integer register in a type (R63). -/
def typedInt (t : Nat × Bool) (v : W64) : Int :=
  match t with
  | (32, true) => (v.setWidth 32).toInt
  | (32, false) => ((v.setWidth 32).toNat : Int)
  | (_, true) => v.toInt
  | (_, false) => (v.toNat : Int)

def execFcvtIf (c : Nat) (rd rs1 rs2 : BitVec 6) (fmt : BitVec 2) (s : State) : Res :=
  fpOp 0xE c rd rs1 rs2 fmt [rs1] [rd] (intType rs2).isSome
    (fun k =>
      let r := Fp.ofInt (sfmt fmt) k.dir (typedInt ((intType rs2).getD (64, true)) (k.int rs1))
      (k.setFpIn fmt rd r.1).raise r.2) s

/-- The rounding of FRINT operation `n`. -/
def rintDir (n : Nat) (rm : Fp.RM) : Fp.RM :=
  match n with
  | 0 => .rne
  | 1 => .rtz
  | 2 => .rup
  | 3 => .rdn
  | 4 => .rna
  | _ => rm

def execFrint (c : Nat) (rd rs1 rs2 : BitVec 6) (fmt : BitVec 2) (s : State) : Res :=
  fpOp 0xF c rd rs1 rs2 fmt [] [rd, rs1] (rs2.toNat < 6)
    (fun k =>
      let r := Fp.roundInt (sfmt fmt) (rintDir rs2.toNat k.dir) (rs2 == 5) (k.fpIn fmt rs1)
      (k.setFpIn fmt rd r.1).raise r.2) s

/-- A fused multiply-add of format F3; `low` is the word's low byte. -/
def fpFma (op c : Nat) (fd fs1 fs2 fs3 : BitVec 6) (fmt : BitVec 2) (low : Nat) (np nc : Bool) (s : State) : Res :=
  let w := wRR op fd fs1 fs2 low
  issue c w [] (if 2 ≤ fmt.toNat then [] else [fd, fs1, fs2, fs3])
    (fun k s =>
      if 2 ≤ fmt.toNat then s.illegal c w
      else
        let r := Fp.fma (sfmt fmt) k.dir np nc (k.fpIn fmt fs1) (k.fpIn fmt fs2) (k.fpIn fmt fs3)
        s.retire c ((k.setFpIn fmt fd r.1).raise r.2)) s

def execFma (c : Nat) (fd fs1 fs2 fs3 : BitVec 6) (fmt : BitVec 2) (s : State) : Res :=
  fpFma 0x19 c fd fs1 fs2 fs3 fmt (4 * fs3.toNat + fmt.toNat) false false s
def execFms (c : Nat) (fd fs1 fs2 fs3 : BitVec 6) (fmt : BitVec 2) (s : State) : Res :=
  fpFma 0x1A c fd fs1 fs2 fs3 fmt (4 * fs3.toNat + fmt.toNat) false true s
def execFnma (c : Nat) (fd fs1 fs2 : BitVec 6) (fs3 : BitVec 5) (fmt : BitVec 2) (s : State) : Res :=
  fpFma 0x1B c fd fs1 fs2 (fs3.setWidth 6) fmt (4 * fs3.toNat + fmt.toNat) true false s
def execFnms (c : Nat) (fd fs1 fs2 : BitVec 6) (fs3 : BitVec 5) (fmt : BitVec 2) (s : State) : Res :=
  fpFma 0x1B c fd fs1 fs2 (fs3.setWidth 6) fmt (128 + 4 * fs3.toNat + fmt.toNat) true true s

end Sys2Proof.Machine
end

