-- ==== Sys2Proof/Machine/Piazza.lean ====
section
/-!
DEFINITION. The fused piazza: lanes, waves and bank conflicts, issue of Piazza ISA instructions, flags, lane power and
slot modes (R149 to R154, R204 to R226, R247 to R252; Tables 08-2 to 08-9).
-/

namespace Sys2Proof.Machine

/-! ## Issue (R211 to R216) -/

/-- Word of a Piazza ISA instruction: major and its other 26 bits. -/
def wPz (op : Nat) (fields : BitVec 26) : W32 := BitVec.ofNat 6 op ++ fields

/-- Does an instruction wait for the count of an earlier one because of the accumulators (R242)? -/
def AccUse.waits (new old : AccUse) : Bool :=
  match new, old with
  | .none, _ => false
  | .matrix, .writes => true
  | .matrix, _ => false
  | _, .matrix => true
  | _, _ => false

/-- Does an instruction wait for one in flight: a tile or chain slot that it reads and that one writes, the accumulators
(R214, R242, R254)? -/
def Slot.pzWaits (p : Slot) (u : PUse) : Bool :=
  p.fly.any (fun f => u.tiles.any (f.use.outTiles.contains ·) || (u.chain.isSome && u.chain == f.use.outChain)
    || u.acc.waits f.use.acc)

/-- The f registers of the control cobble that lie in an instruction's tiles (R249). -/
def PUse.fps (u : PUse) : List (BitVec 6) := (u.tiles ++ u.outTiles).map (BitVec.ofNat 6)

/-- The instruction that has joined the `n` in flight is kept with what it uses; one that trapped has joined none. -/
def State.tagFly (s : State) (sl n : Nat) (u : PUse) (reg : Option Nat) : State :=
  match (lget ({} : Slot) s.slots sl).fly[n]? with
  | some f => s.modSlot sl (fun p => { p with fly := p.fly.set n { f with use := u, reg := reg } })
  | none => s

/-- A Piazza ISA instruction at a cobble: illegal outside a control cobble or when its own check fails; at most 16 in
flight; it waits for what it reads; sleeping lanes wake first where it reserves pipe steps (R92, R211, R214, R242, R252). Its
tiles hold issue as the f registers they share (R249). -/
def pzOp (c : Nat) (w : W32) (pipe : Bool) (ints fps : List (BitVec 6)) (u : PUse) (ok : Cobble → Slot → Bool)
    (body : Nat → Cobble → Slot → State → State) (s : State) : Res :=
  issue c w ints (fps ++ u.fps)
    (fun k s =>
      let sl := slotOfBlk (blkOf c)
      let p := lget ({} : Slot) s.slots sl
      if !k.pz || !ok k p then s.illegal c w
      else if 16 ≤ p.fly.length || p.pzWaits u then s
      else if pipe && p.asleep then s.modSlot sl (fun q => { q with waking := true })
      else (body sl k p s).tagFly sl p.fly.length u (u.rd.bind (regIdx k))) s

/-- The instruction has issued: it is in flight with its flags, and the control cobble moves on. -/
def State.inFlight (s : State) (c engine : Nat) (fl : BitVec 11) : State :=
  (s.retire c (s.cob c)).modSlot (slotOfBlk (blkOf c)) (fun p => { p with fly := p.fly ++ [{ engine := engine, flags := fl }] })

/-- PFLAGS bits (Table 08-8). -/
def pPsn : BitVec 11 := 1024#11
def pBankc : BitVec 11 := 512#11
def pMat (f : Fp.Flags) : BitVec 11 :=
  BitVec.ofNat 11 (256 * boolNat (f.getLsbD 4) + 128 * boolNat (f.getLsbD 2) + 64 * boolNat (f.getLsbD 1)
    + 32 * boolNat (f.getLsbD 0))
def pVec (f : Fp.Flags) : BitVec 11 := f.zeroExtend 11
def pIf (b : Bool) (f : BitVec 11) : BitVec 11 := if b then f else 0

/-- PFENCE: every field 0; waits until nothing is in flight (R216). -/
def execPfence (c : Nat) (fields : BitVec 18) (s : State) : Res :=
  issue c (wPz 0x2C (fields ++ 0#8)) [] []
    (fun k s =>
      if !k.pz || fields != 0 then s.illegal c (wPz 0x2C (fields ++ 0#8))
      else if (s.slotOf c).fly.isEmpty then s.retire c k else s) s

/-- PIAZZA_COUNT_END: the `n`th instruction in flight completes; its flags reach PFLAGS (R222, R224). -/
def execPiazzaCountEnd (k n : Nat) (s : State) : Res :=
  if 20 ≤ k then .fault (.noSuchUnit "slot" k) else
  .next (
    let p := lget ({} : Slot) s.slots k
    match p.fly[n]? with
    | none => s
    | some f =>
      let c := ctlCobble k
      let t := s.modSlot k (fun q => { q with fly := q.fly.eraseIdx n })
      let t := t.modCob c (fun q => { q with pflags := q.pflags ||| f.flags.zeroExtend 64 })
      (State.pfaultEdge s t c).settleWait c)

/-! ## Lane power (R252) -/

def onSlot (k : Nat) (s : State) (f : Slot → Slot) : Res :=
  if k < 20 then .next (s.modSlot k f) else .fault (.noSuchUnit "slot" k)

/-- LANE_SLEEP: the idle count has reached 256 steps (notes/assumptions/10.md). -/
def execLaneSleep (k : Nat) (s : State) : Res := onSlot k s fun p => if p.awake then p else { p with asleep := true }

/-- LANE_WAKE_DONE: a wake ends. -/
def execLaneWakeDone (k : Nat) (s : State) : Res :=
  onSlot k s fun p => if p.waking then { p with asleep := false, waking := false } else p

/-- PVCTL_WRITE: the write of PVCTL.AWAKE, which a CWR makes (notes/assumptions/24.md). -/
def execPvctlWrite (k : Nat) (awake : Bool) (s : State) : Res := onSlot k s fun p => p.pvctl awake

/-- PZCFG_MODE_WRITE: firmware writes PZCFGk of a slot: the requested mode, and LMB unless it is 0 (R206; Table 08-3). -/
def execPzcfgModeWrite (k : Nat) (value : BitVec 32) (s : State) : Res :=
  onSlot k s fun p => { p with reqPz := value.getLsbD 31, lmb := if value.toNat % 16 = 0 then p.lmb else value.toNat % 16 }

end Sys2Proof.Machine
end

