-- ==== Sys2Proof/Machine/Loader.lean ====
section
/-!
DEFINITION. The image loader: manifests and their checks, LOAD_IMAGE, UNLOAD_IMAGE and LAUNCH (R393 to R401). The image bytes
that package memory returns are an operand of LOAD_IMAGE and LAUNCH (notes/assumptions/36.md).
-/

namespace Sys2Proof.Machine

/-! ## The manifest (Tables 16-5 to 16-9) -/

/-- Offset of the manifest in the item. -/
def manAt : Nat := 136

def variantOf (m : List Byte) : Variant :=
  { dims := (List.range 4).map (fun j => fld m (4 * j) 4), entc := fld m 16 2, climc := fld m 18 2, trbc := fld m 20 2,
    entp := fld m 22 2, climp := fld m 24 2, trbp := fld m 26 2, map := fld m 28 1 }

def segmentOf (m : List Byte) : Segment :=
  { src := fld m 0 8, len := fld m 8 4, dkind := fld m 12 1, vmask := fld m 13 1, sel := fld m 14 2, doff := fld m 16 4 }

def resourceOf (m : List Byte) : Resource :=
  { type := fld m 0 1, vmask := fld m 1 1, sel := fld m 2 2, a := fld m 4 4, b := fld m 8 4, c := fld m 12 4 }

/-- Length of the manifest by its counts. -/
def manLen (m : List Byte) : Nat := 64 + 32 * fld m 6 1 + 32 * fld m 8 1 + 16 * fld m 10 2

def imageOf (base : Nat) (m : List Byte) : Image :=
  let nv := fld m 6 1
  let ns := fld m 8 1
  { base := base, kind := fld m 5 1, ndim := fld m 7 1, lmb := fld m 9 1, len := fld m 12 4, digest := (m.drop 16).take 48,
    vars := (List.range nv).map (fun v => variantOf (m.drop (64 + 32 * v))),
    segs := (List.range ns).map (fun j => segmentOf (m.drop (64 + 32 * nv + 32 * j))),
    ress := (List.range (fld m 10 2)).map (fun j => resourceOf (m.drop (64 + 32 * nv + 32 * ns + 16 * j))) }

/-- Bits that a selector leaves unused: of blocks, slots, islands (R395). -/
def selUnused (unit : Nat) : Nat := if unit = 0 then 0xF0E0 else if unit = 1 then 0xFCF8 else 0xFEF8

/-- What a DKIND's and a resource type's selectors name: 0 blocks, 1 slots, 2 islands. -/
def segUnit (k : Nat) : Nat := if k ≤ 1 then 0 else 1
def resUnit (t : Nat) : Nat := if t = 2 then 1 else if t = 6 || t = 8 then 2 else 0

def selBad (unit sel : Nat) : Bool := sel != 0xFFFF && (sel &&& selUnused unit) != 0

/-- One declared part of a variant (R394). -/
def partOk (ent clim trb : Nat) : Bool :=
  ent % 4 == 0 && decide (ent < clim) && clim % 4 == 0 && decide (clim ≤ 16384) && trb % 2048 == 0 && decide (trb + 1280 ≤ clim)

def Image.variantOk (i : Image) (v : Variant) : Bool :=
  (if bit i.kind 0 then partOk v.entc v.climc v.trbc else v.entc == 0 && v.climc == 0 && v.trbc == 0)
    && (if bit i.kind 1 then partOk v.entp v.climp v.trbp && decide (v.climp ≤ 1024 * i.lmb)
        else v.entp == 0 && v.climp == 0 && v.trbp == 0)
    && (List.range 4).all (fun j => if j < i.ndim then decide (1 ≤ v.dims.getD j 0) else v.dims.getD j 0 == 0)
    && (v.map % 16 == 15 || decide (v.map % 16 < i.ndim)) && (v.map / 16 == 15 || decide (v.map / 16 < i.ndim))

/-- Bytes of a segment's destination memory (Table 16-8). -/
def Image.room (i : Image) (k : Nat) : Nat :=
  if k = 0 then 16384 else if k = 1 then 2097152 else if k = 2 then 33554432 else if k = 3 then 16384 - 1024 * i.lmb else 1024 * i.lmb

/-- The format checks, in the order of their codes (R396); 0 when all pass. `rest`: the item's bytes from the manifest on. -/
def formatCheck (m : List Byte) (i : Image) : Nat :=
  let raw := fun (o n : Nat) => (m.drop o).take n
  let nv := fld m 6 1
  let ns := fld m 8 1
  if fld m 0 4 != 0x5E4D0C81 then 1
  else if fld m 4 1 != 1 then 2
  else if nv = 0 || 8 < nv || fld m 7 1 = 0 || 4 < fld m 7 1 || ns = 0 || 128 < ns || 256 < fld m 10 2 || m.length < manLen m
      then 3
  else if 3 < i.kind || (List.range nv).any (fun v => fld (raw (64 + 32 * v) 32) 29 3 != 0)
      || (List.range ns).any (fun j => fld (raw (64 + 32 * nv + 32 * j) 32) 20 12 != 0) || (m.drop (manLen m)).any (· != 0)
      || i.segs.any (fun g => decide (g.dkind ≤ 4) && selBad (segUnit g.dkind) g.sel)
      || i.ress.any (fun r => r.type != 0 && decide (r.type ≤ 9) && (selBad (resUnit r.type) r.sel || r.c != 0
          || ((r.type == 4 || r.type == 5 || r.type == 9) && r.b != 0))) then 4
  else if i.kind = 0 || (bit i.kind 1 != (decide (1 ≤ i.lmb) && decide (i.lmb ≤ 15))) || (!bit i.kind 1 && i.lmb != 0)
      || !i.vars.all i.variantOk then 5
  else if i.segs.any (fun g => decide (4 < g.dkind) || g.vmask == 0 || g.len == 0 || decide (i.len < g.src + g.len)
      || decide (i.room g.dkind < g.doff + g.len)) then 6
  else if i.ress.any (fun r => r.type == 0 || decide (9 < r.type)) then 7
  else if i.ress.any (fun r => (r.type == 1 && (r.a % 256 != 0 || r.b % 256 != 0)) || (r.type == 9 && r.a % 256 != 0)) then 8
  else if i.ress.any (fun r => r.type == 2 && r.a % 1024 != 0) then 9
  else 0

/-! ## Selectors and variants (R395, R397) -/

/-- Blocks, slots and islands of a partition. -/
def State.partBlocks (s : State) (p : Nat) : List Nat :=
  (partSlots (s.partn p).pdef).flatMap (fun e => (List.range 16).map (blkOfSlot e.2))

/-- Units that a selector names; a reason code where it fails. -/
def State.select (s : State) (p unit sel : Nat) : Nat ⊕ List Nat :=
  let (x0, x1, y0, y1) := partRect (s.partn p).pdef
  if unit = 0 then
    if sel = 0xFFFF then .inr ((s.partBlocks p).filter (fun b => !s.outOfService b))
    else
      let x := 4 * x0 + sel % 32
      let y := 4 * y0 + bits sel 8 4
      if 4 * x1 + 3 < x || 4 * y1 + 3 < y then .inl 0x22
      else if s.outOfService (20 * y + x) then .inl 0x21 else .inr [20 * y + x]
  else if unit = 1 then
    if sel = 0xFFFF then .inr ((partSlots (s.partn p).pdef).map (·.2))
    else
      let x := x0 + sel % 8
      let y := y0 + bits sel 8 2
      if x1 < x || y1 < y then .inl 0x22 else .inr [5 * y + x]
  else
    if sel = 0xFFFF then .inr (s.islsOf p)
    else
      let x := x0 + sel % 8
      let h := y0 / 2 + bits sel 8 1
      if x1 < x || y1 / 2 < h then .inl 0x22 else .inr [5 * h + x]

/-- Sum of a resource field over the entries of a type that name a unit, for a variant. -/
def State.total (s : State) (p : Nat) (ress : List Resource) (v type u : Nat) (f : Resource → Nat) : Nat :=
  ((ress.filter (fun r => r.type == type && bit r.vmask v)).filter (fun r =>
    match s.select p (resUnit type) r.sel with
    | .inr us => us.contains u
    | .inl _ => false)).foldl (fun a r => a + f r) 0

/-- Barrier participants that a block holds: its cobbles, or its piazza's control cobble. -/
def State.participants (s : State) (b : Nat) : Nat :=
  if s.pzActive b then boolNat (b == blkOfSlot (slotOfBlk b) 0) else 256

/-- Check of one segment; 0 passes. With `launch` the island of each unit needs a MEM binding. -/
def State.segCheck (s : State) (p : Nat) (launch : Bool) (g : Segment) : Nat :=
  match s.select p (segUnit g.dkind) g.sel with
  | .inl c => c
  | .inr us =>
    if g.dkind = 0 && us.any s.pzActive then 0x20
    else if 2 ≤ g.dkind && us.any (fun k => !(s.slot k).active || !s.fusable k) then 0x20
    else if launch && us.any (fun u => (s.lowBind (if segUnit g.dkind = 0 then islOfBlk u else slotIsl u) 0).isNone) then 0x28
    else 0

/-- Check of one resource entry, with those before it and itself in `upTo`; 0 passes. -/
def State.resCheck (s : State) (p v : Nat) (launch : Bool) (upTo : List Resource) (r : Resource) : Nat :=
  match s.select p (resUnit r.type) r.sel with
  | .inl c => c
  | .inr us =>
    let sum := fun (u : Nat) (f : Resource → Nat) => s.total p upTo v r.type u f
    match r.type with
    | 1 => if 2097152 < r.a + r.b then 0x23 else 0
    | 2 => if us.any (fun k => !(s.slot k).active || !s.fusable k) then 0x20 else if 33554432 < r.a + r.b then 0x24 else 0
    | 3 => if us.any (fun u => 16 < sum u (·.b)) || 16 < r.a + r.b then 0x25 else 0
    | 4 => if us.any (fun u => 32 < sum u (·.a)) then 0x26 else 0
    | 5 => if us.any (fun u => 16 < sum u (·.a)) then 0x27 else 0
    | 6 => if launch && us.any (fun u => 15 < r.a || !(sbValid (lget 0 (s.isl u).sbind r.a) && sbKind (lget 0 (s.isl u).sbind r.a) == r.b))
        then 0x28 else 0
    | 7 => if 15 < r.b || us.any (fun u => s.participants u < sum u (·.a)) then 0x29 else 0
    | 8 => if us.any (fun u => 512 < sum u (·.a) || 128 < sum u (·.b)) then 0x2A else 0
    | _ => if 2097152 < r.a + 64 then 0x23 else 0

def firstSeg (chk : Segment → Nat) : Nat → List Segment → Option (Nat × Nat)
  | _, [] => none
  | n, g :: gs => if chk g = 0 then firstSeg chk (n + 1) gs else some (chk g, n)

def firstRes (chk : List Resource → Resource → Nat) : List Resource → List Resource → Option (Nat × Nat)
  | _, [] => none
  | seen, r :: rs =>
    let c := chk (seen ++ [r]) r
    if c = 0 then firstRes chk (seen ++ [r]) rs else some (c, seen.length)

/-- The first failure of a variant: reason code and entry index (R397, R399). -/
def State.varCheck (s : State) (p : Nat) (i : Image) (launch : Bool) (v : Nat) : Option (Nat × Nat) :=
  match firstSeg (fun g => if bit g.vmask v then s.segCheck p launch g else 0) 0 i.segs with
  | some x => some x
  | none => firstRes (fun upTo r => if bit r.vmask v then s.resCheck p v launch upTo r else 0) [] i.ress

/-! ## LOAD_IMAGE and UNLOAD_IMAGE -/

/-- The whole-image checks on the bytes of the image: 0x0A to 0x0C, 0 when all pass. -/
def State.imageCheck (s : State) (p : Nat) (item : Item) (i : Image) (m data : List Byte) : Nat :=
  let k := s.partn p
  let sig := (item.bytes.drop 40).take 96
  if i.base % 4096 != 0 || 2 ^ 48 ≤ i.base || data.length < i.len then 0x0A
  else if Config.sha384 (data.take i.len) != i.digest then 0x0B
  else if k.imgkeyen && !Config.ecdsaVerify k.imgkey (Config.sha384 (m.take (manLen m))) sig then 0x0C
  else if !k.imgkeyen && sig.any (· != 0) then 0x0C
  else 0

/-- An accepted image replaces the earlier one and writes LMB of the piazza slots (R398). -/
def State.setImage (s : State) (p : Nat) (i : Image) (usable : Nat) : State :=
  let s := s.modPart p (fun k => { k with image := some i, usable := usable })
  if i.lmb = 0 then s
  else ((partSlots (s.partn p).pdef).filter (fun e => (s.slot e.2).reqPz || (s.slot e.2).active)).foldl
    (fun s e => s.modSlot e.2 (fun q => { q with lmb := i.lmb })) s

/-- LOAD_IMAGE. `data`: the bytes that package memory returns from IMGBASE on. -/
def execLoadImage (part : Nat) (data : List Byte) (s : State) : Res :=
  fwP 0x20 part s fun item s =>
    let m := item.bytes.drop manAt
    let i := imageOf (item.fld 32 8) m
    let bad := formatCheck m i
    let bad2 := s.imageCheck part item i m data
    if (s.partn part).run = 1 then failR stBusy s
    else if bad != 0 then ({ status := stBadImage, reason := bad }, s)
    else
    let s := (s.hub 6 (item.fld 32 8) (toBytes 8 i.len)).hub 2 (item.fld 32 8) (toBytes 8 i.len)
    if bad2 != 0 then ({ status := stBadImage, reason := bad2 }, s.hub 7 (item.fld 32 8) [])
    else
      let vs := List.range i.vars.length
      let usable := maskOf i.vars.length (fun v => (s.varCheck part i false v).isNone)
      match vs.findSome? (fun v => (s.varCheck part i false v).map (fun x => (v, x))) with
      | none =>
        let (w, s) := s.draw
        ({ detail := usable + 256 * (w.toNat % 2 ^ 24) }, s.setImage part i usable)
      | some (v, c, n) =>
        if usable = 0 then ({ status := stNoResource, reason := c, detail := v * 256 + n * 65536 }, s.hub 7 (item.fld 32 8) [])
        else ({ reason := c, detail := usable + v * 256 + n * 65536 }, s.setImage part i usable)

/-- UNLOAD_IMAGE. -/
def execUnloadImage (part : Nat) (s : State) : Res :=
  fwP 0x21 part s fun _ s =>
    if (s.partn part).run = 1 then failR stBusy s
    else
      let s := match (s.partn part).image with
        | some i => s.hub 7 i.base []
        | none => s
      okR (s.modPart part (fun k => { k with image := none, usable := 0 }))

/-! ## LAUNCH (R399 to R401) -/

/-- COBID (Table 04-8). -/
def cobidOf (c : Nat) : W64 :=
  BitVec.ofNat 64 (islOf c * 2 ^ 32 + slotOfBlk (blkOf c) * 2 ^ 24 + blkOf c * 2 ^ 8 + c % 256)

/-- Step 1: the allotments of variant `v`. -/
def State.allot (s : State) (p v : Nat) (i : Image) : State :=
  let s := (s.partBlocks p).foldl (fun s b =>
    let sum := fun (t : Nat) => s.total p i.ress v t b (·.a)
    let idx := (i.ress.filter (fun r => r.type == 7 && bit r.vmask v && (match s.select p 0 r.sel with
      | .inr us => us.contains b
      | .inl _ => false))).getLast?
    s.modBlk b (fun k => { k with
      winAlloc := sum 4, dmaAlloc := sum 5, expect := sum 7, barIdx := (idx.map (·.b)).getD 0 })) s
  (s.islsOf p).foldl (fun s n => s.modNte n (fun t => { t with
    qalloc := s.total p i.ress v 8 n (·.a), malloc := s.total p i.ress v 8 n (·.b) })) s

/-- Step 3: one segment's bytes to one unit. The FE bits are kept (R178). -/
def State.place (s : State) (k u doff : Nat) (d : List Byte) : State :=
  let all := maskN d.length
  match k with
  | 0 => (List.range 256).foldl (fun s c => s.writeMem (scrAddr (u * 256 + c) doff) all d) s
  | 1 => s.writeMem (bsAddr u doff) all d
  | 2 => (List.range d.length).foldl (fun s j => s.writeMem (pAddr u (doff + j)) 1 [d.getD j 0]) s
  | 3 => (List.range 4096).foldl (fun s l => s.writeMem (s.lAddr u l doff) all d) s
  | _ => s.writeMem (scrAddr (ctlCobble u) doff) all d

/-- The blocks whose DMA channel 15 writes a segment into a unit (R400): the block, the 16 blocks of a piazza whose store or lanes
take it, the block of the control cobble. -/
def placeBlks (k u : Nat) : List Nat :=
  if k ≤ 1 then [u] else if k ≤ 3 then (List.range 16).map (blkOfSlot u) else [blkOf (ctlCobble u)]

/-- Channel 15 of a block in its reset state, where the placing of segments leaves it (R400). -/
def State.freeLoader (s : State) (b : Nat) : State :=
  s.modBlk b (fun k => { k with chans := k.chans.filter (fun e => e.1 != 15) })

/-- The launch record (Table 16-11). -/
def launchRecord (v ndim p : Nat) (shape dims : List Nat) (t : BitVec 64) : List Byte :=
  toBytes 1 v ++ toBytes 1 ndim ++ toBytes 2 p ++ toBytes 4 0 ++ shape.flatMap (toBytes 4) ++ dims.flatMap (toBytes 4)
    ++ toBytes 8 t.toNat ++ toBytes 16 0

/-- Step 5: a mask of rows or columns from a shape dimension (R400). -/
def launchMask (shape : List Nat) (nib : Nat) : BitVec 256 :=
  if nib = 15 then BitVec.allOnes 256 else BitVec.ofNat 256 (2 ^ ((shape.getD nib 0 - 1) % 256 + 1) - 1)

/-- Steps 2 and 6 at one cobble: identity and limits, the launch state, and release at the entry address. A cobble of a
piazza other than the control cobble is no released core: it is gated with CODELIM 0 and keeps its registers and accumulators,
the piazza's tile registers and sub-tiles (R154, R205; notes/assumptions/84.md). -/
def State.release (s : State) (v : Variant) (c : Nat) : State :=
  let k := (s.cob c).clear
  let sl := s.slotOf c
  let base := { k with cobid := cobidOf c }
  s.setCob c (
    if !sl.active then
      { base with codelim := v.climc, trbase := BitVec.ofNat 64 v.trbc, pc := BitVec.ofNat 64 v.entc, run := .running }
    else if c = ctlCobble (slotOfBlk (blkOf c)) then
      { base with codelim := v.climp, trbase := BitVec.ofNat 64 v.trbp, pc := BitVec.ofNat 64 v.entp, run := .running, pz := true,
                  plmbase := BitVec.ofNat 64 (sl.lmb * 1024) }
    else { s.cob c with cobid := cobidOf c, codelim := 0, run := .gated })

/-- The CSRs of a piazza that its slot holds take their reset values at launch (R108): PVCTL, VLEN and the PAMAX registers. -/
def Slot.launchCsrs (k : Slot) : Slot := { k with asleep := true, awake := false, waking := false, vlr := 64, vlc := 512, pamax := [] }

/-- The steps of R400 for variant `v`. -/
def State.launch (s : State) (p v : Nat) (i : Image) (shape : List Nat) (data : List Byte) : State :=
  let var := i.vars.getD v { dims := [], entc := 0, climc := 0, trbc := 0, entp := 0, climp := 0, trbp := 0, map := 0 }
  let t := s.pktime
  let s := (s.allot p v i).hub 2 i.base (toBytes 8 i.len)
  let s := (i.segs.filter (fun g => bit g.vmask v)).foldl (fun s g =>
    match s.select p (segUnit g.dkind) g.sel with
    | .inl _ => s
    | .inr us => us.foldl (fun s u =>
        (placeBlks g.dkind u).foldl State.freeLoader (s.place g.dkind u g.doff ((data.drop g.src).take g.len))) s) s
  let s := (i.ress.filter (fun r => r.type == 9 && bit r.vmask v)).foldl (fun s r =>
    match s.select p 0 r.sel with
    | .inl _ => s
    | .inr us => us.foldl (fun s b => s.place 1 b r.a (launchRecord v i.ndim p shape var.dims t)) s) s
  let s := ((partSlots (s.partn p).pdef).filter (fun e => (s.slot e.2).active)).foldl (fun s e =>
    s.modSlot e.2 (fun q => { q.launchCsrs with
      mrow := launchMask shape (var.map % 16), mcol := launchMask shape (var.map / 16) })) s
  let s := ((s.partBlocks p).filter (fun b => !s.outOfService b)).foldl (fun s b =>
    (List.range 256).foldl (fun s c => s.release var (b * 256 + c)) s) s
  let s := (s.islsOf p).foldl (fun s n => s.modIsl n (fun k => { k with waitedAll := false, waitRun := 0, parked := false })) s
  let s := (s.islsOf p).foldl State.opMove s
  s.modPart p (fun k => { k with run := 1, launchT := t, variant := v, shape := shape, outcome := 0 })

/-- Does a variant cover a shape? -/
def covers (ndim : Nat) (shape : List Nat) (v : Variant) : Bool :=
  (List.range ndim).all (fun j => decide (shape.getD j 0 ≤ v.dims.getD j 0))

def Variant.size (v : Variant) (ndim : Nat) : Nat := (v.dims.take ndim).foldl (· * ·) 1

/-- Has the partition a present island with its packet port UP and an UP stream port (R440)? -/
def State.service (s : State) (p : Nat) : Bool :=
  (s.islsOf p).any (fun i => (s.isl i).present && s.ppUp i)
    && (List.range 160).any (fun n => (s.isl (n / 16)).part == p && s.portUp n)

/-- LAUNCH. It waits while self-test holds an island of the partition (R512). -/
def execLaunch (part : Nat) (data : List Byte) (s : State) : Res :=
  if 10 ≤ part then .fault (.noSuchUnit "partition" part)
  else fwCmdWait 0x22 part s fun item s =>
    let shape := (List.range 4).map (fun j => item.fld (32 + 4 * j) 4)
    let k := s.partn part
    if (s.islsOf part).any (fun n => (s.isl n).stRun.isSome) then (none, s)
    else match k.image with
      | none => (some { status := stBadParam, reason := 0x41 }, s)
      | some i =>
        if k.run = 1 then (some { status := stBusy }, s)
        else if (List.range 4).any (fun j => decide (j < i.ndim) == (shape.getD j 0 == 0)) then
          (some { status := stBadParam, reason := 0x40 }, s)
        else if !s.service part then (some { status := stNoResource, reason := 0x28 }, s)
        else
          let cov := (List.range i.vars.length).filter (fun v =>
            match i.vars[v]? with
            | some x => covers i.ndim shape x
            | none => false)
          let size := fun (v : Nat) => (i.vars[v]?.map (fun x => x.size i.ndim)).getD 0
          let best := (cov.filter (fun v => (s.varCheck part i true v).isNone)).foldl (fun (m : Option Nat) v =>
            match m with
            | none => some v
            | some w => if size v < size w then some v else m) none
          match cov, best with
          | [], _ => (some { status := stNoBucket }, s)
          | v :: _, none => (some { status := stNoResource, reason := ((s.varCheck part i true v).map (·.1)).getD 0 }, s)
          | _, some v =>
            let s := s.launch part v i shape data
            (some { detail := v + 256 * (s.pktime.toNat % 2 ^ 56) }, s)

end Sys2Proof.Machine
end

