-- ==== Sys2Proof/Machine/Dump.lean ====
section
/-!
DEFINITION. The dump store: records, their encryption and sections, collection before a reset, reading and copying
(R415, R460 to R467, R521 to R523; Tables 19-7 to 19-9).
-/

namespace Sys2Proof.Machine

/-! ## Records -/

/-- A dump record's header (Table 19-8); the COPIED flag is set when the record is copied (R466). -/
def dumpHeader (kind part flags seq : Nat) (time : BitVec 64) (trigger len fuseid : Nat) (tenant : BitVec 16) (count : Nat) :
    List Byte :=
  toBytes 4 0x1D810D00 ++ toBytes 1 1 ++ toBytes 1 kind ++ toBytes 1 part ++ toBytes 1 flags ++ toBytes 8 seq
    ++ toBytes 8 time.toNat ++ toBytes 4 trigger ++ toBytes 4 len ++ toBytes 16 fuseid ++ toBytes 2 tenant.toNat
    ++ toBytes 2 count ++ toBytes 12 0

/-- The IV of a record (R415), as a number; its bytes are taken little-endian (notes/assumptions/38.md). -/
def dumpIv (fuseid part seq : Nat) : Nat := fuseid % 2 ^ 32 * 2 ^ 64 + part * 2 ^ 56 + seq

/-- What a record is made of: kind, partition, FLAGS, package time, TRIGGER, sections or blocks, plain text. -/
structure DumpIn where
  kind : Nat
  part : Nat
  flags : Nat
  time : BitVec 64
  trigger : Nat
  count : Nat
  plain : List Byte
deriving DecidableEq, Repr

/-- The record under the partition's DUMPKEY, with a sequence number. The cipher text has the length of the plain text. -/
def State.dumpRecord (s : State) (d : DumpIn) (seq : Nat) : DumpRec :=
  let p := s.partn d.part
  let tenant := p.pdef.setWidth 16
  let fid := s.fuse 5 0
  let h := dumpHeader d.kind d.part d.flags seq d.time d.trigger d.plain.length fid tenant d.count
  { kind := d.kind, part := d.part, tenant := tenant, seq := seq,
    bytes := h ++ Config.aesGcm p.dumpkey (toBytes 12 (dumpIv fid d.part seq)) h d.plain }

/-- Units of 64 KiB of a record (R461). -/
def DumpRec.units (r : DumpRec) : Nat := (r.bytes.length + 65535) / 65536

/-- Units that the trace holds: 4,096 entries each. -/
def Trace.held (t : Trace) : Nat := (t.ents.length + 4095) / 4096

def State.freeUnits (s : State) : Nat := 128 - (s.aon.dumps.foldl (fun n r => n + r.units) 0 + s.trace.held)

def State.modTrace (s : State) (f : Trace → Trace) : State := { s with trace := f s.trace }

/-- The trace gives up its oldest units and stops (R461, R523). -/
def State.giveTrace (s : State) (n : Nat) : State :=
  if n = 0 || s.trace.ents.isEmpty then s
  else (s.modAon (fun a => { a with ttrunc := true })).modTrace (fun t => { t with
    ents := t.ents.drop (4096 * n), running := false, trunc := true })

/-- Records already copied are freed, the oldest first, until `n` units are. -/
def dropCopied : Nat → List DumpRec → List DumpRec
  | _, [] => []
  | n, r :: rs => if n = 0 then r :: rs else if r.copied then dropCopied (n - r.units) rs else r :: dropCopied n rs

/-- Room for `n` units: the trace's, then copied records (R461). -/
def State.makeRoom (s : State) (n : Nat) : State :=
  let s := s.giveTrace (min s.trace.held (n - s.freeUnits))
  s.modAon (fun a => { a with dumps := dropCopied (n - s.freeUnits) a.dumps })

/-- A third uncopied state dump of a partition replaces the latest (R461). -/
def replaceLatest (p : Nat) (l : List DumpRec) : List DumpRec :=
  let mine := l.filter (fun r => r.part == p && r.kind == 1 && !r.copied)
  match mine with
  | _ :: _ :: _ => l.filter (fun r => some r != mine.getLast?)
  | _ => l

/-- A record joins the dump store, whole (R465). -/
def State.addDump (s : State) (d : DumpIn) : State :=
  let seq := (s.partn d.part).dseq
  if 2 ^ 56 ≤ seq then s
  else
    let r := s.dumpRecord d seq
    let s := s.modAon (fun a => { a with dumps := if d.kind = 1 then replaceLatest d.part a.dumps else a.dumps })
    let s := s.makeRoom r.units
    (s.modAon (fun a => { a with dumps := a.dumps ++ [r] })).modPart d.part (fun k => { k with dseq := seq + 1 })

/-- TRIGGER (Table 19-8). -/
def triggerWord (level cause blk : Nat) : Nat := level % 256 + cause * 256 + blk * 65536

/-! ## Sections (Table 19-9) -/

def section8 (type : Nat) (body : List Byte) : List Byte := toBytes 1 type ++ toBytes 3 0 ++ toBytes 4 body.length ++ body

/-- Section 0x01: 64 headers, the item in progress first; the entries of places without an item are zeros
(notes/assumptions/38.md). -/
def State.secQueue (s : State) (p : Nat) : List Byte :=
  let q := s.queue p
  let hs := ((q.filter (·.started)) ++ (q.filter (fun i => !i.started))).flatMap (fun i => i.bytes.take 32)
  section8 1 ((hs ++ List.replicate (2048 - hs.length) 0).take 2048)

def State.secSync (s : State) (bs : List Nat) : List Byte :=
  section8 2 (bs.flatMap (fun b => (List.range 16).flatMap (fun i => toBytes 4 (lget 0 (s.blk b).sync i).toNat)))

def State.secDma (s : State) (bs : List Nat) : List Byte :=
  section8 3 (bs.flatMap (fun b => (List.range 128).flatMap (fun r => toBytes 4 ((s.ctlRead b (0x1600 + 4 * r)).getD 0))))

def State.secBind (s : State) (is : List Nat) : List Byte :=
  section8 4 (is.flatMap (fun i => (List.range 16).flatMap (fun n => toBytes 4 (lget 0 (s.isl i).sbind n).toNat)))

def State.secQps (s : State) (is : List Nat) : List Byte :=
  section8 5 (is.flatMap (fun i => (List.range 4096).flatMap (fun r => toBytes 4 ((s.nteReg (ppBlk i) (0x4000 + 4 * r)).getD 0))))

/-- Entry of a core. -/
def Cobble.entry (k : Cobble) : List Byte :=
  let st := boolNat k.halted + 2 * boolNat (k.hold == .waitInt) + 4 * boolNat (match k.hold with | .fe _ => true | _ => false)
    + 8 * boolNat (k.run == .failed) + 16 * boolNat (k.run == .exited)
  toBytes 8 k.trpc.toNat ++ toBytes 1 k.trcause.toNat ++ toBytes 1 k.status.toNat
    ++ toBytes 6 (k.winstate.toNat % 2 ^ 25 + st * 2 ^ 25)

/-- The cores of a block: its cobbles, or the control cobble of its piazza. -/
def State.blkCores (s : State) (b : Nat) : List Nat :=
  if s.pzActive b then (if ctlCobble (slotOfBlk b) = b * 256 then [b * 256] else [])
  else (List.range 256).map (fun c => b * 256 + c)

def State.secCores (s : State) (bs : List Nat) : List Byte :=
  section8 6 (bs.flatMap (fun b => (s.blkCores b).flatMap (fun c => (s.cob c).entry)))

/-- PZCFGk of a slot (Table 08-3). -/
def Slot.pzcfg (k : Slot) : W32 := b32 (boolNat k.reqPz * 2 ^ 31 + boolNat k.active * 2 ^ 30 + k.lmb % 16)

def State.secPiazzas (s : State) (ks : List Nat) : List Byte :=
  section8 7 ((ks.filter (fun k => (s.slot k).active)).flatMap (fun k =>
    let c := s.cob (ctlCobble k)
    toBytes 8 (s.slot k).pstatus.toNat ++ toBytes 8 c.pflags.toNat ++ toBytes 8 c.pbcrec.toNat ++ toBytes 8 (s.slot k).pzcfg.toNat))

def State.secEngines (s : State) (bs : List Nat) : List Byte :=
  section8 8 (bs.flatMap (fun b => [0x1A04, 0x1318, 0x1208, 0x1A08].flatMap (fun o => toBytes 4 ((s.ctlRead b o).getD 0))))

/-- The state dump of a whole partition. -/
def State.partDump (s : State) (p : Nat) (time : BitVec 64) (level cause : Nat) : DumpIn :=
  let bs := s.partBlocks p
  let is := s.islsOf p
  { kind := 1, part := p, flags := 2 * boolNat s.approx, time := time, trigger := triggerWord level cause 0xFFFF, count := 8,
    plain := s.secQueue p ++ s.secSync bs ++ s.secDma bs ++ s.secBind is ++ s.secQps is ++ s.secCores bs
      ++ s.secPiazzas ((partSlots (s.partn p).pdef).map (·.2)) ++ s.secEngines bs }

/-- The sections of some blocks (block reset, Table 19-7). -/
def State.blockDump (s : State) (p b : Nat) (bs : List Nat) (time : BitVec 64) (level cause : Nat) : DumpIn :=
  { kind := 1, part := p, flags := 2 * boolNat s.approx, time := time, trigger := triggerWord level cause b, count := 4,
    plain := s.secSync bs ++ s.secDma bs ++ s.secCores bs ++ s.secEngines bs }

/-- The engine sections of a block (engine reset): its DMA channels, its slice's QPs, its engine registers
(notes/assumptions/38.md). -/
def State.engineDump (s : State) (p b : Nat) (time : BitVec 64) (cause : Nat) : DumpIn :=
  let nte := if ppBlk (islOfBlk b) = b then [islOfBlk b] else []
  { kind := 1, part := p, flags := 2 * boolNat s.approx, time := time, trigger := triggerWord 2 cause b,
    count := 2 + nte.length,
    plain := s.secDma [b] ++ (if nte.isEmpty then [] else s.secQps nte) ++ s.secEngines [b] }

/-! ## The scratch sample (R464) -/

/-- Word `i` of a scratchpad as the sample holds it, and whether it reads as poisoned. -/
def State.sampleWord (s : State) (c i : Nat) : Bool × List Byte :=
  let a := scrAddr c (4 * i)
  if s.badRow a then (true, toBytes 4 (0xDEAD0000 + i)) else (false, s.rdN a 4)

def State.sampleBlk (s : State) (b : Nat) : List Byte :=
  toBytes 2 b ++ toBytes 1 (boolNat (s.outOfService b) + 2 * boolNat (s.pzActive b)) ++ toBytes 29 0
    ++ (if s.outOfService b then []
        else (List.range 256).flatMap (fun c => (List.range 32).flatMap (fun i => (s.sampleWord (b * 256 + c) i).2)))

/-- The poisoned words of the first 128 bytes of the scratchpads of some blocks, as cobble × 32 + word. -/
def State.samplePoison (s : State) (bs : List Nat) : List Nat :=
  (bs.filter (fun b => !s.outOfService b)).flatMap (fun b => (List.range 256).flatMap (fun c =>
    ((List.range 32).filter (fun i => (s.sampleWord (b * 256 + c) i).1)).map (fun i => (b * 256 + c) * 32 + i)))

/-- Blocks of the list that fit in a record of `n` units with its header and tag. -/
def State.fitting (s : State) : Nat → List Nat → List Nat
  | _, [] => []
  | room, b :: bs =>
    let n := if s.outOfService b then 32 else 32800
    if n ≤ room then b :: s.fitting (room - n) bs else []

/-- The scratch sample of a partition's blocks, at most `most` of them; what does not fit is cut at a whole block. -/
def State.addSample (s : State) (p most : Nat) (time : BitVec 64) (level cause : Nat) : State :=
  let all := s.partBlocks p
  let s := s.makeRoom ((all.length * 32800 + 80 + 65535) / 65536)
  let bs := s.fitting (s.freeUnits * 65536 - 80) (all.take most)
  if s.freeUnits = 0 then s
  else s.addDump { kind := 2, part := p, flags := boolNat (bs.length != all.length) + 2 * boolNat s.approx, time := time,
                   trigger := triggerWord level cause 0xFFFF, count := bs.length, plain := bs.flatMap s.sampleBlk }

/-- Collection before a partition reset: the state dump, then the sample. A CLOSED partition has nothing collected (R460). -/
def State.collect (s : State) (p most : Nat) (t : BitVec 64) (level cause : Nat) : State :=
  if !(s.partn p).isOpen then s else (s.addDump (s.partDump p t level cause)).addSample p most t level cause

/-! ## The trace as a record (R521 to R523) -/

def TraceKind.code : TraceKind → Nat
  | .trap => 0
  | .intr => 1
  | .phase => 2
  | .pfault => 3
  | .halt => 4
  | .resume => 5

/-- An entry's 16 bytes. -/
def TraceEnt.bytes : TraceEnt → List Byte
  | .ev t c k d => toBytes 8 t.toNat
      ++ toBytes 8 (blkOf c + c % 256 * 2 ^ 9 + (Config.traceKind k.code).toNat * 2 ^ 17 + d.toNat * 2 ^ 24)
  | .marker t n => toBytes 8 t.toNat ++ toBytes 8 (0x7F * 2 ^ 17 + n % 2 ^ 40 * 2 ^ 24)

/-- A record with FLAGS.COPIED. -/
def DumpRec.markCopied (r : DumpRec) : DumpRec :=
  { r with copied := true, bytes := r.bytes.set 7 (r.bytes.getD 7 0 ||| 4#8) }

/-- The record of a trace that has stopped. -/
def State.traceRec (s : State) : List DumpRec :=
  let t := s.trace
  match t.part with
  | none => []
  | some p =>
    if t.running || t.ents.isEmpty then []
    else
      let r := s.dumpRecord { kind := 3, part := p, flags := boolNat t.trunc + 2 * boolNat t.approx, time := t.start,
                              trigger := triggerWord 0 2 0xFFFF, count := 0, plain := t.ents.flatMap TraceEnt.bytes } t.seq
      [if t.copied then r.markCopied else r]

/-! ## Reading and copying (R466, R467) -/

/-- Places a record by its sequence number. -/
def insertSeq (r : DumpRec) : List DumpRec → List DumpRec
  | [] => [r]
  | x :: xs => if x.seq ≤ r.seq then x :: insertSeq r xs else r :: x :: xs

/-- The records of a partition that a requester may read, in sequence order. -/
def State.readable (s : State) (i : Item) : List DumpRec :=
  let l := (s.aon.dumps ++ s.traceRec).filter (fun r => r.part == i.part && (i.cls != 2 || r.tenant.toNat == i.tenant))
  l.foldl (fun m r => insertSeq r m) []

/-- READ_DUMP: bytes of the partition's records from OFFSET on. -/
def execReadDump (s : State) : Res :=
  fwM 0x61 s fun i s =>
    let n := i.fld 36 2
    if 8160 < n then failR stBadParam s
    else dataR ((((s.readable i).flatMap (·.bytes)).drop (i.fld 32 4)).take n) s

/-- Pieces of a message's bytes. -/
def chunks (n : Nat) : Nat → List Byte → List (List Byte)
  | 0, _ => []
  | f + 1, l => if l.isEmpty then [] else l.take n :: chunks n f (l.drop n)

/-- The next record of a partition goes out to its copy region, in sequence order; copying stops at a record that would pass
the region's 8 MiB, and waits while no management port is in service. -/
def State.copyNext (s : State) (p : Nat) : State :=
  let k := s.partn p
  match k.copyBase, s.mgmtPort with
  | some base, some port =>
    let due := (s.aon.dumps ++ s.traceRec).filter (fun r => r.part == p && k.copySeq ≤ r.seq)
    match due.foldl (fun (m : Option DumpRec) r => match m with
      | none => some r
      | some x => if r.seq < x.seq then some r else m) none with
    | none => s
    | some r =>
      if 2 ^ 23 < k.copyPos + r.bytes.length then s.modPart p (fun k => { k with copyBase := none })
      else
        let m := r.markCopied
        let s := ((chunks 4096 (m.bytes.length / 4096 + 1) m.bytes).zipIdx).foldl (fun s e =>
          s.sendMsg port 3 (Config.copyMsg 1 (base + k.copyPos + 4096 * e.2) e.1)) s
        let s := if s.aon.dumps.contains r then s.modAon (fun a => { a with dumps := a.dumps.map (fun x => if x = r then m else x) })
          else s.modTrace (fun t => { t with copied := true })
        s.modPart p (fun k => { k with
          copySeq := r.seq + 1, copyPos := k.copyPos + r.bytes.length })
  | _, _ => s

/-- COPY_DUMP: ADDR becomes the partition's copy region, and the records already held are copied at once. -/
def execCopyDump (s : State) : Res :=
  fwM 0x62 s fun i s =>
    if 2 ^ 48 ≤ i.fld 32 8 then failR stBadParam s
    else
      let s := s.modPart i.part (fun k => { k with copyBase := some (i.fld 32 8), copyPos := 0, copySeq := 0 })
      okR ((List.range (s.aon.dumps.length + 1)).foldl (fun s _ => s.copyNext i.part) s)

/-- DUMP_RECORD_COPIED: a later record is copied as soon as it is written. -/
def execDumpRecordCopied (part : Nat) (s : State) : Res :=
  if 10 ≤ part then .fault (.noSuchUnit "partition" part) else .next (s.copyNext part)

end Sys2Proof.Machine
end

