-- ==== Sys2Proof/Machine/Reset.lean ====
section
/-!
DEFINITION. Fencing, draining and resetting: the recovery actions and the changes of a partition (R199, R200, R404,
R444 to R452, R456, R460; Tables 19-2 and 19-3). An action advances by one phase each time its row fires. Phases: 0 waits for
self-test (R456), 1 drain, 2 flush or collect, 3 write-backs, 4 clear order, 5 clear, 6 the end.
-/

namespace Sys2Proof.Machine

/-! ## Domains -/

/-- The block of an action on less than a partition. -/
def Action.blk (a : Action) : Nat :=
  match a.kind with
  | .cobble => a.unit / 256
  | .engine => a.unit / 4
  | _ => a.unit

/-- 0 cobble or engine, 1 block, 2 partition. -/
def Action.rank (a : Action) : Nat :=
  match a.kind with
  | .cobble => 0
  | .engine => 0
  | .block => 1
  | _ => 2

def ActKind.code : ActKind → Nat
  | .switch => 0
  | .reset => 1
  | .block => 2
  | .cobble => 3
  | .engine => 4
  | .open => 5
  | .close => 6

/-- The blocks of an action's domain. -/
def State.actBlks (s : State) (a : Action) : List Nat :=
  match a.kind with
  | .block => s.fenceSet a.unit
  | .cobble => [a.blk]
  | .engine => [a.blk]
  | _ => s.partBlocks a.part

/-- Do two actions share a domain (R446)? -/
def State.actMeet (s : State) (a b : Action) : Bool :=
  a.part == b.part &&
    (if a.rank = 2 || b.rank = 2 then true
     else if a.rank = 1 || b.rank = 1 then (s.actBlks a).any (s.actBlks b).contains
     else a.kind == b.kind && a.unit == b.unit)

/-! ## Starting and ending an action (R446, R469) -/

/-- The command of an action is answered. -/
def State.endItem (s : State) (a : Action) (st : Nat) : State :=
  match a.item with
  | none => s
  | some n =>
    match (s.queue 10).find? (fun i => i.seq == n) with
    | none => s
    | some i => s.finish 10 i { status := st }

/-- The record of a recovery action's start or end: level, cause, domain, and what else belongs to it. An opening or closing
of a partition is no recovery. -/
def State.actLog (s : State) (a : Action) (event : Nat) (extra : List Nat) : State :=
  let d := [a.level, a.cause, a.kind.code, a.unit] ++ extra
  match a.kind with
  | .open => s
  | .close => s
  | .switch => s.logEvent 1 ((s.islsOf a.part).headD 0) event a.part d
  | .reset => s.logEvent 1 ((s.islsOf a.part).headD 0) event a.part d
  | _ => s.logEvent 2 a.blk event a.part d

def State.setActs (s : State) (f : List Action → List Action) : State := s.modAon (fun a => { a with acts := f a.acts })

/-- An action with the same kind, partition and unit. -/
def Action.same (a b : Action) : Bool := a.kind == b.kind && a.part == b.part && a.unit == b.unit

def State.setAct (s : State) (a : Action) : State := s.setActs (fun l => l.map (fun x => if x.same a then a else x))

/-- An action starts, unless one on the same or a larger domain runs; it takes over the smaller ones inside it. -/
def State.beginAct (s : State) (a : Action) : Option State :=
  if s.aon.acts.any (fun x => s.actMeet x a && a.rank ≤ x.rank) then none
  else
    let old := s.aon.acts.filter (fun x => s.actMeet x a)
    let s := s.setActs (fun l => l.filter (fun x => !old.contains x) ++ [a])
    some ((old.foldl (fun s x => s.endItem x stFenced) s).actLog a 0x11 [])

/-- A partition reset that no command started (R325, R453, R527); it waits for an action on the partition that runs. -/
def State.escalate (s : State) (p : Nat) : State :=
  if p = 0xFF then s
  else match s.beginAct { kind := .reset, part := p, tick := s.ticks, time := s.pktime, level := 3, cause := 3 } with
    | some s => s
    | none => s.modAon (fun a => { a with resetDue := if s.aon.acts.any (fun x => x.part == p && x.kind == .reset) then a.resetDue else insertNat p a.resetDue })

/-- An action is over: its command is answered and its end recorded; a reset of its partition that waited begins. -/
def State.endAct (s : State) (a : Action) (st : Nat) : State :=
  let s := ((s.setActs (fun l => l.filter (fun x => !x.same a))).endItem a st).actLog a 0x12 (st :: a.words)
  if s.aon.resetDue.contains a.part then (s.modAon (fun x => { x with resetDue := x.resetDue.filter (· != a.part) })).escalate a.part else s

/-- The next phase of an action begins. -/
def State.toPhase (s : State) (a : Action) (n : Nat) : State := s.setAct { a with phase := n, tick := s.ticks }

/-! ## Fencing (R390, R444) -/

/-- Does a partition-queue item in progress need one of these blocks (R390)? -/
def Item.needs (i : Item) (bs : List Nat) : Bool :=
  i.op == 0x22 || (i.op == 0x30 && bs.contains (i.fld 32 2)) || (i.op == 0x31 && bs.contains (i.fld 34 2 / 16))
    || (0x42 ≤ i.op && i.op ≤ 0x44 && bs.contains (ppBlk (i.fld 32 1)))

/-- Does it need an engine of block `b`: channel 15 and the bindings of a LAUNCH, a stream port named by BIND_STREAM, a slice? -/
def Item.needsEng (i : Item) (b e : Nat) : Bool :=
  match e with
  | 0 => i.op == 0x22
  | 1 => i.op == 0x22 || (i.op == 0x40 && spBlk (i.fld 36 1) == b)
  | 2 => false
  | _ => 0x42 ≤ i.op && i.op ≤ 0x44 && ppBlk (i.fld 32 1) == b

/-- The item in progress of a partition's queue is answered FENCED. -/
def State.stopItem (s : State) (p : Nat) (t : Item → Bool) : State :=
  match s.inProg p with
  | none => s
  | some i => if t i then (s.undo i).finish p i { status := stFenced } else s

/-- The context of a partition ends (R401). -/
def State.endContext (s : State) (p : Nat) : State :=
  s.modPart p (fun k => if k.run = 1 then { k with run := 2, endTick := s.pktime } else k)

/-- A partition is fenced. -/
def State.fencePart (s : State) (p : Nat) : State :=
  (s.partBlocks p).foldl State.fenceBlk (s.modPart p (fun k => { k with fenced := true }))

/-! ## Draining (R444, R445) -/

/-- Is no request of a core outstanding? -/
def Cobble.quiet (k : Cobble) : Bool := k.loads.isEmpty && k.stores.isEmpty && !k.feFlying

/-- Has a DMA engine no piece request and no read of a descriptor outstanding? -/
def Block.dmaQuiet (k : Block) : Bool :=
  k.chans.all (fun e => e.2.dread.all (fun r => r.2.2.isSome) && e.2.descs.all (fun d => d.reads.isEmpty && d.writes.isEmpty))

/-- Is no request of a block's engines outstanding, and none admitted in the block? -/
def Block.quiet (k : Block) : Bool :=
  k.dmaQuiet && k.misses.isEmpty
    && k.bankq.all (fun e => e.2.isEmpty) && k.waitq.isEmpty && k.jobs.isEmpty && k.cwait.isEmpty && k.bg.isEmpty && k.ext.isEmpty && k.syncIn.isEmpty && k.ctlIn.isEmpty

/-- Stream ports whose attachment block is one of these. -/
def portsOf (bs : List Nat) : List Nat := (List.range 160).filter (fun p => bs.contains (spBlk p))

/-- Islands whose slice's attachment block is one of these. -/
def slicesOf (bs : List Nat) : List Nat := (List.range 10).filter (fun i => bs.contains (ppBlk i))

/-- Is the domain of some blocks drained? The instructions of a piazza complete (R225). -/
def State.domQuiet (s : State) (bs : List Nat) : Bool :=
  s.cobs.all (fun e => !bs.contains (blkOf e.1) || e.2.quiet) && bs.all (fun b => (s.blk b).quiet)
    && (portsOf bs).all (fun p => (s.port p).tags.isEmpty) && (slicesOf bs).all (fun i => (s.nte i).accs.isEmpty)
    && s.slots.all (fun e => !bs.contains (ctlCobble e.1 / 256) || e.2.fly.isEmpty)

/-- Tags of a core's outstanding requests whose answer has not arrived. -/
def Cobble.openTags (k : Cobble) : List Nat :=
  (k.loads.map PendLoad.tag ++ k.stores.map PendStore.tag ++ (if k.feFlying then [255] else [])).filter (fun t =>
    !k.ans.any (fun a => a.tag == t) && !k.stAns.any (fun a => a.tag == t))

/-- The outstanding requests of a core are abandoned. -/
def Cobble.abandon (k : Cobble) : Cobble :=
  { k with goneTags := k.goneTags ++ k.openTags, loads := [], stores := [], ans := [], stAns := [],
           hold := if k.feFlying then .none else k.hold }

/-- Tags of a DMA engine's outstanding requests, its completion ADDs and descriptor reads among them. -/
def Block.dmaOpen (k : Block) : List Nat :=
  (k.chans.flatMap (fun e => e.2.tags)).filter (fun t => !k.dmaAns.any (fun a => a.tag == t))

/-- A tag of an engine is abandoned, unless its answer has arrived. -/
def Block.abandonTags (k : Block) (sport : Nat) (ts : List Nat) : Block :=
  { k with
    gone := k.gone ++ (ts.filter (fun t => !k.engAns.any (fun a => a.sport == sport && a.tag == t))).map (fun t => (sport, t)),
    engAns := k.engAns.filter (fun a => !(a.sport == sport && ts.contains a.tag)) }

/-- The DMA engine's requests are abandoned. -/
def Block.dmaAbandon (k : Block) : Block :=
  { k with
    gone := k.gone ++ k.dmaOpen.map (fun t => (257, t)),
    dmaAns := k.dmaAns.filter (fun a => k.dmaGone.contains a.tag),
    chans := k.chans.map (fun e => (e.1, { e.2 with dread := none, descs := e.2.descs.map (fun d => { d with reads := [], writes := [] }) })) }

/-- The cache engine's fills and write-backs are abandoned; bytes whose write-back was not acknowledged stay dirty (R450). -/
def Block.cacheAbandon (k : Block) : Block :=
  let k' := k.abandonTags 259 ((k.misses.filter (·.cmd.isNone)).map (·.tag))
  (k.misses.filter (·.wb)).foldl Block.unwrite { k' with misses := [] }

/-- The outstanding tags of a stream port are abandoned; with 64 of them the port is retired (R445). -/
def State.portAbandon (s : State) (p : Nat) : State :=
  let q := s.port p
  let gone := q.gone ++ q.tags.map (·.1)
  let s := s.setPort p { q with gone := gone, tags := [] }
  if 64 ≤ gone.length && q.st = 2 then s.portRetire p 12 else s

/-- The slice's accesses are abandoned. -/
def State.nteAbandon (s : State) (i : Nat) : State :=
  let ts := (s.nte i).accs.filterMap (·.wire)
  (s.modBlk (ppBlk i) (fun k => k.abandonTags 261 ts)).modNte i (fun n => { n with accs := [] })

/-- Every request of some blocks that is still unanswered is abandoned. -/
def State.abandon (s : State) (bs : List Nat) : State :=
  let s := { s with cobs := s.cobs.map (fun e => if bs.contains (blkOf e.1) then (e.1, e.2.abandon) else e) }
  let s := bs.foldl (fun s b => s.modBlk b (fun k => k.dmaAbandon.cacheAbandon)) s
  let s := (slicesOf bs).foldl State.nteAbandon s
  (portsOf bs).foldl State.portAbandon s

/-- Drain limit in ticks (Table 19-2). -/
def Action.drainLimit (a : Action) : Nat :=
  match a.kind with
  | .cobble => 30000
  | .engine => 100000
  | .block => 150000
  | _ => 500000

/-- Is an action's domain drained? -/
def State.actDrained (s : State) (a : Action) : Bool :=
  match a.kind with
  | .cobble =>
    (s.cob a.unit).quiet && (!(s.cob a.unit).pz || (s.slot (slotOfBlk a.blk)).fly.isEmpty)
  | .engine =>
    match a.unit % 4 with
    | 0 => (s.blk a.blk).dmaQuiet
    | 1 => (portsOf [a.blk]).all (fun p => (s.port p).tags.isEmpty)
    | 2 => (s.blk a.blk).misses.isEmpty
    | _ => (s.nte (islOfBlk a.blk)).accs.isEmpty
  | _ => s.domQuiet (s.actBlks a)

/-- DRAIN_LIMIT: the drain of the `n`th running action has lasted its limit: what is unanswered is abandoned. An engine's
requests are discarded with its reset. -/
def execDrainLimit (n : Nat) (s : State) : Res :=
  .next (
    match s.aon.acts[n]? with
    | none => s
    | some a =>
      if a.phase != 1 || s.ticks < a.tick + a.drainLimit then s
      else
        let s := match a.kind with
          | .cobble => s.modCob a.unit Cobble.abandon
          | .engine => s
          | _ => s.abandon (s.actBlks a)
        s.toPhase a 2)

/-- A search ends for the engines and the work contexts of some blocks, which are cleared (R446, R457, R459). -/
def State.dropSusp (s : State) (bs : List Nat) : State :=
  let s := s.modAon (fun x => { x with susp := x.susp.filter (fun y => !bs.contains y.eblk && !bs.contains y.blk) })
  bs.foldl (fun s b => s.modBlk b (fun k => { k with engstat := k.engstat &&& 0xFFFFFFEF#32 })) s

/-! ## Partition-level actions (R199, R404, R451) -/

/-- Does self-test hold an island of the partition (R456)? -/
def State.testing (s : State) (p : Nat) : Bool := (s.islsOf p).any (fun i => (s.isl i).stRun.isSome)

/-- Retired bindings are bound anew to in-service ports that no binding names (R289). -/
def State.rebind (s : State) (p : Nat) : State :=
  let mine := (s.islsOf p).flatMap (fun i => (List.range 16).map (fun n => 16 * i + n))
  (mine.filter (fun n => sbRetired (s.sbind n))).foldl (fun s n =>
    match mine.find? (fun q => s.portUp q && !(List.range 160).any (fun m => sbValid (s.sbind m) && sbPort (s.sbind m) == q)) with
    | none => s
    | some q => s.setBind (n / 16) (n % 16) ((s.sbind n &&& 0x77FF00FF#32) ||| b32 (2 ^ 31 + q * 256))) s

/-- The end of a partition-level action. -/
def State.partEnd (s : State) (a : Action) : State :=
  let p := a.part
  let s := if a.kind = .reset then s.rebind p else s
  let s := (s.partBlocks p).foldl State.liftBlk s
  let s := s.dropSusp (s.partBlocks p)
  let s := match a.kind with
    | .open => s.modPart p (fun k => { k with isOpen := true })
    | .close =>
      let s := match (s.partn p).image with
        | some i => s.hub 7 i.base []
        | none => s
      (s.modPart p (fun k => {
        k with isOpen := false, dumpkey := [], imgkeyen := false, imgkey := [], image := none, usable := 0, run := 0, debug := false,
               nonce := none, copyBase := none })).modAon (fun x => { x with dumps := x.dumps.filter (fun r => r.part != p) })
    | _ => s
  let s := if a.kind = .close && s.trace.part = some p then { s with trace := {} } else s
  let s := if a.kind = .reset then (s.islsOf p).foldl (fun s i => s.modIsl i (fun k => { k with brownFails := 0 })) s else s
  (s.modPart p (fun k => { k with fenced := false })).endAct a stOk

/-- A partition-level action advances. -/
def State.partStep (s : State) (a : Action) : State :=
  let p := a.part
  let bs := s.partBlocks p
  match a.phase with
  | 0 =>
    if s.testing p || (a.kind == .close && (s.inProg p).isSome) then s
    else (((s.stopItem p (fun _ => true)).endContext p).fencePart p).toPhase a 1
  | 1 => if s.actDrained a then s.toPhase a 2 else s
  | 2 =>
    match a.kind with
    | .switch => (bs.foldl (fun s b => s.cacheScan b 3 (fun _ => true)) s).toPhase a 3
    | .reset =>
      let w := if (s.partn p).isOpen then s.samplePoison bs else []
      (s.collect p bs.length a.time a.level a.cause).toPhase { a with words := w } 4
    | _ => s.toPhase a 4
  | 3 => if bs.all (fun b => (s.blk b).misses.all (fun m => !m.wb)) then s.toPhase a 4 else s
  | 4 => ((s.islsOf p).foldl (fun s i => s.ringPost { tag := 15, isl := i, op := .clear }) s).ringRun.toPhase a 5
  | 5 => if (s.islsOf p).all (fun i => !(s.isl i).ordered && !(s.isl i).cleared) then s.toPhase a 6 else s
  | _ => s.partEnd a

/-- The row of a kind of action: a running one of that kind and domain advances; otherwise the management command in
progress with that opcode starts one. `f` answers an item that starts none. -/
def actRow (op : Nat) (t : Action → Bool) (step : State → Action → State) (f : Item → State → Option Reply × State) (s : State) :
    State :=
  if !s.fwUp then s
  else match s.aon.acts.find? t with
    | some a => step s a
    | none =>
      match s.inProg 10 with
      | none => s
      | some i =>
        if i.op != op then s
        else match f i s with
          | (some r, s) => s.finish 10 i r
          | (none, s) => s

/-- A command starts an action, or is answered FENCED where a larger one runs; its first phase runs at once. -/
def startAct (step : State → Action → State) (a : Action) (s : State) : Option Reply × State :=
  match s.beginAct a with
  | none => (some { status := stFenced }, s)
  | some s => (none, step s a)

def partRow (kind : ActKind) (op part : Nat) (pre : Item → State → Option Reply × State) (s : State) : Res :=
  if 10 ≤ part then .fault (.noSuchUnit "partition" part)
  else .next (actRow op (fun a => a.kind == kind && a.part == part) State.partStep (fun i s =>
    match pre i s with
    | (some r, s) => (some r, s)
    | (none, s) => startAct State.partStep
        { kind := kind, part := i.part, tick := s.ticks, time := s.pktime, item := some i.seq,
          level := if kind = .reset then 3 else 1, cause := 2 } s) s)

/-- CONTEXT_SWITCH. -/
def execContextSwitch (part : Nat) (s : State) : Res := partRow .switch 0x50 part (fun _ s => (none, s)) s

/-- RESET_PARTITION. -/
def execResetPartition (part : Nat) (s : State) : Res := partRow .reset 0x51 part (fun _ s => (none, s)) s

/-- OPEN_PARTITION: the keys are checked and stored, then the clear runs (R404, R414). Records that a chip reset left are
erased (R467). -/
def execOpenPartition (part : Nat) (s : State) : Res :=
  partRow .open 0x11 part (fun i s =>
    let key := (i.bytes.drop 32).take 32
    let en := i.fld 64 1
    let ik := (i.bytes.drop 65).take 97
    if (s.partn i.part).isOpen then (some { status := stBusy }, s)
    else
      (none, (s.modPart i.part (fun k => {
        k with dumpkey := key, imgkeyen := en == 1, imgkey := if en = 1 then ik else [], dseq := 0, debug := false, nonce := none,
               run := 0, image := none, usable := 0 })).modAon (fun x => {
        x with dumps := x.dumps.filter (fun r => r.part != i.part) }))) s

/-- CLOSE_PARTITION: the queue is flushed before anything else; a CLOSED partition is left as it is. -/
def execClosePartition (part : Nat) (s : State) : Res :=
  partRow .close 0x12 part (fun i s =>
    if !(s.partn i.part).isOpen then (some {}, s)
    else (none, ((s.flushQueue i.part).2).modPart i.part (fun k => { k with fenced := true, debug := false }))) s

/-- RESET_PHASE_LIMIT: the collect phase of a partition reset has lasted 8 ms: the sample holds the blocks taken by then, a free
value; or an island has not reported its clear within 500 µs: the reset runs once more, and after a second failure the
partition is to be lost (R451). -/
def execResetPhaseLimit (part : Nat) (s : State) : Res :=
  if 10 ≤ part then .fault (.noSuchUnit "partition" part)
  else .next (
    match s.aon.acts.find? (fun a => a.kind == .reset && a.part == part) with
    | none => s
    | some a =>
      if a.phase = 2 && a.tick + 800000 ≤ s.ticks then
        let (v, s) := s.draw
        let n := v.toNat % ((s.partBlocks part).length + 1)
        let w := if (s.partn part).isOpen then s.samplePoison ((s.partBlocks part).take n) else []
        (s.collect part n a.time a.level a.cause).toPhase { a with words := w } 4
      else if a.phase = 5 && a.tick + 50000 ≤ s.ticks then
        if a.tries = 0 then s.setAct { a with tries := 1, phase := 0, tick := s.ticks } else s.setAct { a with tries := 2 }
      else s)

/-- A partition is LOST: the regulators of its islands are off, its context is over, its items are answered FENCED, code 0x4
is raised (R401, R451). -/
def State.losePart (s : State) (p phase : Nat) : State :=
  let acts := s.aon.acts.filter (fun a => a.part == p)
  let s := s.modAon (fun x => { x with resetDue := x.resetDue.filter (· != p) })
  let s := acts.foldl (fun s a => s.endAct a stFenced) s
  let s := (s.endContext p).modPart p (fun k => { k with lost := true })
  let s := (s.islsOf p).foldl (fun s i => s.modIsl i (fun k => { k with powered := false, brown := false, ordered := false })) s
  let s := (s.queue p).foldl (fun s i => s.answer i { status := stFenced }) (s.setQueue p [])
  (s.modAon (fun x => { x with attn := x.attn ||| 0x10#8 })).logEvent 1 ((s.islsOf p).headD 0) 0x13 p [phase]

/-- PARTITION_LOST: the second reset of a partition has failed. -/
def execPartitionLost (part : Nat) (s : State) : Res :=
  if 10 ≤ part then .fault (.noSuchUnit "partition" part)
  else .next (
    match s.aon.acts.find? (fun a => a.kind == .reset && a.part == part && a.tries == 2) with
    | none => s
    | some a => s.losePart part a.phase)

/-! ## Blocks (R449) -/

/-- A block reset advances: fence and drain, dump, clear and lift. -/
def State.blockStep (s : State) (a : Action) : State :=
  let bs := s.actBlks a
  match a.phase with
  | 0 =>
    if (s.isl (islOfBlk a.unit)).stRun.isSome then s
    else (bs.foldl State.fenceBlk (s.stopItem a.part (fun i => i.needs bs))).toPhase a 1
  | 1 => if s.actDrained a then s.toPhase a 2 else s
  | 2 =>
    let s := if (s.partn a.part).isOpen then s.addDump (s.blockDump a.part a.unit bs a.time a.level a.cause) else s
    s.toPhase a 4
  | _ =>
    let s := s.clearBlks bs.contains
    let s := if s.pzActive a.unit then s.modSlot (slotOfBlk a.unit) Slot.clear else s
    (bs.foldl State.liftBlk (s.dropSusp bs)).endAct a stOk

/-- RESET_BLOCK. The ladder of Table 19-4 has no level for it: the level of its records is a free value. -/
def execResetBlock (b : Nat) (s : State) : Res :=
  if nBlocks ≤ b then .fault (.noSuchUnit "block" b)
  else .next (actRow 0x52 (fun a => a.kind == .block && a.unit == b) State.blockStep (fun i s =>
    let u := i.fld 32 2
    if !s.inPart i.part u then (some { status := stBadParam }, s)
    else
      let (v, s) := s.draw
      startAct State.blockStep { kind := .block, part := i.part, unit := u, tick := s.ticks, time := s.pktime, item := some i.seq,
                                 level := v.toNat % 256, cause := 2 } s) s)

/-! ## Cobbles (R448) -/

/-- A cobble forgets its watch, and every watch and FE watch of it ends. -/
def State.forget (s : State) (c : Nat) : State :=
  { s with blks := s.blks.map (fun (e : Nat × Block) => (e.1, { e.2 with
      lwatch := e.2.lwatch.filter (fun w => w.cid != c), rwatch := e.2.rwatch.filter (fun w => w.cid != c),
      watchIn := e.2.watchIn.filter (fun w => w.1.cid != c), wakes := e.2.wakes.filter (fun w => w.1.cid != c),
      fewatch := if e.1 = blkOf c then e.2.fewatch.filter (fun w => w.1 != c % 256) else e.2.fewatch })) }

/-- A reset cobble restarts at its variant's entry address in the launch state; without a running context it takes the
launch state alone. A request of it that nobody has admitted is withdrawn, and its wait ends (R202). -/
def State.restart (s : State) (p c : Nat) : State :=
  let k := s.partn p
  let s := (s.withdraw c).endWait c
  match k.image.bind (fun i => i.vars[k.variant]?) with
  | some v => if k.run = 1 then s.release v c else s.modCob c Cobble.clear
  | none => s.modCob c Cobble.clear

/-- The registers, tiles and accumulators of a whole piazza take the state of R208; its memories stay. -/
def State.resetPiazza (s : State) (k : Nat) : State :=
  let s := { s with cobs := s.cobs.map (fun (e : Nat × Cobble) =>
    if slotOfBlk (blkOf e.1) = k && e.1 != ctlCobble k then (e.1, { e.2 with fps := [], acc := [] }) else e) }
  s.modSlot k Slot.clear

/-- A cobble reset advances. -/
def State.cobbleStep (s : State) (a : Action) : State :=
  let c := a.unit
  match a.phase with
  | 0 => if (s.isl (islOf c)).stRun.isSome then s else
      ((s.stopItem a.part (fun i => i.op == 0x22)).modCob c (fun k => { k with rstHold := true })).toPhase a 1
  | 1 => if s.actDrained a then s.toPhase a 2 else s
  | _ =>
    let s := s.forget c
    let s := if (s.cob c).pz then s.resetPiazza (slotOfBlk (blkOf c)) else s
    (s.restart a.part c).endAct a stOk

/-- RESET_COBBLE. A cobble of a piazza other than its control cobble is BAD_PARAM. -/
def execResetCobble (c : Nat) (s : State) : Res :=
  if nCobbles ≤ c then .fault (.noSuchUnit "cobble" c)
  else .next (actRow 0x53 (fun a => a.kind == .cobble && a.unit == c) State.cobbleStep (fun i s =>
    let b := i.fld 32 2
    let u := b * 256 + i.fld 34 1
    if !s.inPart i.part b || (s.pzActive b && u != ctlCobble (slotOfBlk b)) then (some { status := stBadParam }, s)
    else startAct State.cobbleStep { kind := .cobble, part := i.part, unit := u, tick := s.ticks, time := s.pktime, item := some i.seq,
                                     level := 1, cause := 2 } s) s)

/-! ## FENCE (R444) -/

/-- FENCE_COMMAND: the partition or the block is fenced for a reset to come. -/
def execFenceCommand (s : State) : Res :=
  fwM 0x55 s fun i s =>
    let p := i.part
    let b := i.fld 34 2
    if s.aon.acts.any (fun a => a.part == p && (a.rank == 2 || (a.rank == 1 && i.fld 32 1 == 1 && (s.actBlks a).contains b))) then
      failR stFenced s
    else if i.fld 32 1 = 0 then okR ((s.stopItem p (fun _ => true)).fencePart p)
    else if i.fld 32 1 = 1 && s.inPart p b then
      let bs := s.fenceSet b
      okR (bs.foldl State.fenceBlk (s.stopItem p (fun i => i.needs bs)))
    else failR stBadParam s

end Sys2Proof.Machine
end

