-- ==== Sys2Proof/Machine/Engine.lean ====
section
/-!
DEFINITION. Engine watchdogs, engine resets and the guilty-party search (R441, R443, R450, R453, R457 to R459; Table 19-6).
-/

namespace Sys2Proof.Machine

/-! ## The watchdog (R441) -/

/-- Is an engine of a block busy: a request unanswered, or a request or work request that it could start? An NTE slice counts
its accesses and the work requests it has not started (notes/assumptions/39.md). -/
def State.engBusy (s : State) (b e : Nat) : Bool :=
  let k := s.blk b
  match e with
  | 0 => k.chans.any (fun c => !c.2.descs.isEmpty || (c.2.stat ≤ 1 && c.2.prod != c.2.cons))
  | 1 => !k.portIn.isEmpty || (portsOf [b]).any (fun p => !(s.port p).tags.isEmpty)
  | 2 => !k.misses.isEmpty
  | _ =>
    let n := s.nte (islOfBlk b)
    ppBlk (islOfBlk b) == b && (!n.accs.isEmpty || n.qps.any (fun q => q.2.stat == 1 && q.2.sqNext != q.2.sqprod))

/-- Has an engine with its watchdog enabled been busy for ENGWD.PROG µs without progress? -/
def State.engHung (s : State) (b e : Nat) : Bool :=
  let k := s.blk b
  k.engwd.getLsbD (16 + e) && s.engBusy b e && decide (100 * (k.engwd.toNat % 65536) ≤ lget 0 k.wd e)

/-- One tick of the watchdogs: busy engines age, except in a brown-out hold. -/
def State.wdTick (s : State) : State :=
  { s with blks := s.blks.map (fun e =>
      if (s.isl (islOfBlk e.1)).brown then e
      else (e.1, { e.2 with wd := (List.range 4).foldl (fun t n =>
        cset 0 t n (if s.engBusy e.1 n then lget 0 t n + 1 else 0)) e.2.wd })) }

/-! ## Suspects (R443, R457) -/

/-- The DMA channel of a block that holds a piece with a tag. -/
def Block.chanOfTag (k : Block) (tag : Nat) : Option Nat :=
  (k.chans.find? (fun c => c.2.tags.contains tag)).map (·.1)

/-- Work contexts active on an engine, by block and then channel, cobble or number. -/
def State.contexts (s : State) (b e : Nat) : List Suspect :=
  let k := s.blk b
  match e with
  | 0 => (k.chans.filter (fun c => !c.2.descs.isEmpty || c.2.dread.isSome)).map (fun c => { engine := 0, eblk := b, blk := b, id := c.1 })
  | 1 =>
    let cmds := k.portIn.map (·.2) ++ (portsOf [b]).flatMap (fun p => (s.port p).tags.map (·.2))
    (List.range nBlocks).flatMap (fun x =>
      let mine := cmds.filter (fun c => c.sblk == x)
      if mine.isEmpty then [] else
      let chs := (mine.filter (fun c => c.sport == 257)).filterMap (fun c => (s.blk x).chanOfTag c.tag)
      ((List.range 16).filter chs.contains ++ (if mine.any (fun c => c.sport == 259) then [16] else [])).map (fun n =>
        { engine := 1, eblk := b, blk := x, id := n }))
  | 2 =>
    let ids := (k.misses.filter (fun m => !m.wb)).map (fun m => m.acc.sport)
    ((List.range 256).filter ids.contains ++ (if k.cacheBusy then [256] else [])).map (fun n =>
      { engine := 2, eblk := b, blk := b, id := n })
  | _ => ((s.nte (islOfBlk b)).qps.filter (fun q => q.2.stat == 1)).map (fun q => { engine := 3, eblk := b, blk := b, id := q.1 })

def Suspect.isOf (x : Suspect) (b e : Nat) : Bool := x.eblk == b && x.engine == e

/-- The same work context in another search (R459). -/
def Suspect.alike (x y : Suspect) : Bool :=
  (x.engine == 3) == (y.engine == 3) && (x.engine == 2) == (y.engine == 2) && x.blk == y.blk && x.id == y.id

def State.setSusp (s : State) (f : List Suspect → List Suspect) : State := s.modAon (fun a => { a with susp := f a.susp })
def State.modSusp (s : State) (x : Suspect) (f : Suspect → Suspect) : State :=
  s.setSusp (fun l => l.map (fun y => if y.isOf x.eblk x.engine && y.blk == x.blk && y.id == x.id then f y else y))

/-! ## The reset of an engine (R450) -/

/-- A descriptor as it restarts from its start: its completion signal is not sent twice (R301), and one that has failed issues
nothing more (R299). -/
def Desc.again (d : Desc) : Desc :=
  { d with rnext := 0, wnext := 0, got := [], reads := [], writes := [], signalled := false,
           syncen := d.syncen && !d.signalled }

/-- The descriptors of a channel leave the engine with its suspect; tags in `dead` get no answer any more. -/
def State.takeDescs (s : State) (x : Suspect) (dead : List Nat) : State :=
  let c := (s.blk x.blk).chan x.id
  let ts := c.tags
  let s := s.modBlk x.blk (fun k => { k with
    gone := k.gone ++ (ts.filter (fun t => !dead.contains t && !k.dmaAns.any (fun a => a.tag == t))).map (fun t => (257, t)),
    dmaAns := k.dmaAns.filter (fun a => !ts.contains a.tag), chans := lset k.chans x.id { c with descs := [], dread := none } })
  s.modSusp x (fun y => { y with descs := y.descs ++ c.descs, idem := y.idem && c.descs.all (fun d => d.idem || d.stopped) })

/-- The fills of a block's cache engine leave with its suspects, the one of a cobble or all of them. -/
def State.takeFills (s : State) (x : Suspect) (dead : List Nat) : State :=
  let k := s.blk x.blk
  let mine := fun (m : CMiss) => !m.wb && (x.engine == 1 || m.acc.sport == x.id)
  let ms := k.misses.filter mine
  let s := s.setBlk x.blk ({ k with misses := k.misses.filter (fun m => !mine m) }.abandonTags 259
    (((ms.filter (fun (m : CMiss) => m.cmd.isNone)).map CMiss.tag).filter (fun t => !dead.contains t)))
  s.modSusp x (fun y => { y with accs := y.accs ++ ms.map CMiss.acc })

/-- An engine is reset: what is in progress on it is discarded, and its suspects keep what they may replay. -/
def State.engReset (s : State) (b e : Nat) : State :=
  let mine := s.aon.susp.filter (fun x => x.isOf b e)
  let s : State := match e with
    | 0 => mine.foldl (fun s x => s.takeDescs x []) s
    | 1 =>
      let cmds := (s.blk b).portIn.map (·.2) ++ (portsOf [b]).flatMap (fun p => (s.port p).tags.map (·.2))
      let s := ((portsOf [b]).foldl State.portAbandon s).modBlk b (fun k => { k with portIn := [] })
      mine.foldl (fun s x =>
        let dead := (cmds.filter (fun c => c.sblk == x.blk && c.sport == (if x.id = 16 then 259 else 257))).map PortCmd.tag
        if x.id = 16 then s.takeFills x dead else s.takeDescs x dead) s
    | 2 =>
      let s := (mine.filter (fun x => x.id != 256)).foldl (fun s x => s.takeFills x []) s
      s.modBlk b Block.cacheAbandon
    | _ =>
      let i := islOfBlk b
      (s.nteAbandon i).modNte i (fun n => { n with
        rxq := [], qps := n.qps.map (fun q => (q.1, { q.2 with buf := none, wqeRd := false, rqeRd := false })) })
  s.modBlk b (fun k => { k with
    wd := cset 0 k.wd e 0, engHold := k.engHold.filter (· != e),
    engstat := if k.engstat.toNat / 2 ^ 24 = 255 then k.engstat else k.engstat + 0x1000000#32 })

/-! ## The end of a work context (R458, Table 19-6) -/

/-- A channel ends FAILED with a code. The failure has no address: CHn_FADDR is a free value. -/
def State.chanEnd (s : State) (b ch code : Nat) (descs : List Desc) : State :=
  let c := (s.blk b).chan ch
  let (v, s) := s.draw
  let adr := v.toNat % 2 ^ 56
  let (idx, user, level) := match descs with
    | d :: _ => (d.idx, d.user, d.prio)
    | [] => (c.cons.toNat, 0, 0)
  let s := s.modChan b ch (fun c => { c with
    stat := 2, code := BitVec.ofNat 8 code, fidx := BitVec.ofNat 16 idx, faddr := BitVec.ofNat 56 adr, descs := [], dread := none })
  let s := s.logBlk b 9 [ch, code, idx % 65536, adr, user.toNat]
  if c.err.getLsbD 31 then s.dmaErr b level (bits c.err.toNat 0 13) else s

/-- The fills of a suspect are answered REMOTE_FAULT. -/
def State.failFills (s : State) (x : Suspect) : State :=
  let s := s.takeFills x []
  let accs := ((s.aon.susp.find? (fun y => y.isOf x.eblk x.engine && y.blk == x.blk && y.id == x.id)).map (·.accs)).getD x.accs
  (accs.eraseDups.foldl (fun s a => s.deliver x.blk { sport := a.sport, tag := a.tag, status := 6 }) s).cacheRetry x.blk

/-- The record of a guilty or unresolved cobble or CACHEOP (R458): an ENGINE_HANG record of the one context
(notes/assumptions/66.md). -/
def State.guiltyLog (s : State) (x : Suspect) : State :=
  s.logBlk x.blk 0x10 [x.engine, 1, boolNat x.idem, boolNat (!x.idem)]

/-- A guilty or unresolved context ends. -/
def State.convict (s : State) (x : Suspect) : State :=
  let s := s.modSusp x (fun y => { y with verdict := if x.idem then 3 else 4 })
  if x.engine = 3 then
    s.qpFail (islOfBlk x.blk) x.id 15 (s.qp (islOfBlk x.blk) x.id).sqcons.toNat 0
  else if x.engine = 2 && x.id = 256 then
    (s.modBlk x.blk (fun k => { k with cacheOvr := true, cacheBusy := false, cacheStuck := false, nqNew := k.nq })).guiltyLog x
  else if x.engine = 2 || x.id = 16 then (s.failFills x).guiltyLog x
  else s.chanEnd x.blk x.id (if x.idem then 14 else 13) x.descs

/-! ## The action (R446, R453) -/

/-- An engine reset advances. After it, contexts whose work may not be replayed are unresolved at once, and a context that
hung its own replay is guilty. -/
def State.engineStep (s : State) (a : Action) : State :=
  let b := a.blk
  let e := a.unit % 4
  match a.phase with
  | 0 =>
    if (s.isl (islOfBlk b)).stRun.isSome then s
    else ((s.stopItem a.part (fun i => i.needsEng b e)).modBlk b (fun k => { k with engHold := insertNat e k.engHold })).toPhase a 1
  | 1 => if s.actDrained a then s.toPhase a 2 else s
  | _ =>
    let s := if a.tries = 0 && (s.partn a.part).isOpen then s.addDump (s.engineDump a.part b a.time a.cause) else s
    let s := s.engReset b e
    let bad := s.aon.susp.filter (fun x => x.isOf b e && ((x.verdict == 0 && !x.idem) || x.verdict == 5))
    (bad.foldl State.convict s).endAct a stOk

/-- An engine reset begins with its suspects, or the partition is reset: at the third hang within 1 s, or with more than 32
suspects (Table 19-4). -/
def State.startEngine (s : State) (a : Action) : Option Reply × State :=
  let b := a.blk
  let e := a.unit % 4
  let xs := s.contexts b e
  let recent := s.aon.engHangs.filter (fun h => h.1 == b && h.2.1 == e && decide (s.ticks < h.2.2 + 100000000))
  if 32 < xs.length || (a.cause = 1 && 3 ≤ recent.length) then (some { status := stFenced }, s.escalate a.part)
  else match s.beginAct a with
    | none => (some { status := stFenced }, s)
    | some s =>
      let s := s.setSusp (fun l => l.filter (fun x => !x.isOf b e) ++ xs)
      let s := s.modBlk b (fun k => { k with engstat := k.engstat ||| 0x10#32 })
      (none, s.engineStep a)

/-- Is there such an engine: a stream engine at an edge block, an NTE slice at an attachment block? -/
def engExists (b e : Nat) : Bool :=
  match e with
  | 0 => true
  | 1 => !(portsOf [b]).isEmpty
  | 2 => true
  | 3 => ppBlk (islOfBlk b) == b
  | _ => false

/-- RESET_ENGINE: it replies after the reset, and its suspects are then searched. -/
def execResetEngine (b eng : Nat) (s : State) : Res :=
  if nBlocks ≤ b || 4 ≤ eng then .fault (.noSuchUnit "engine" (4 * b + eng))
  else .next (actRow 0x54 (fun a => a.kind == .engine && a.unit == 4 * b + eng) State.engineStep (fun i s =>
    let u := i.fld 32 2
    let e := i.fld 34 1
    if !s.inPart i.part u || !engExists u e then (some { status := stBadParam }, s)
    else s.startEngine { kind := .engine, part := i.part, unit := 4 * u + e, tick := s.ticks, time := s.pktime, item := some i.seq,
                         level := 2, cause := 2 }) s)

/-- ENGINE_WATCHDOG: the engine's HUNG bit is set, and firmware starts its reset. While firmware is stopped the reset waits
(R437). A hang during a search is GUILTY_PARTY_REPLAY's. -/
def execEngineWatchdog (b eng : Nat) (s : State) : Res :=
  if nBlocks ≤ b || 4 ≤ eng then .fault (.noSuchUnit "engine" (4 * b + eng))
  else .next (
    if !s.engHung b eng || s.engOff b eng || s.aon.susp.any (fun x => x.isOf b eng) then s
    else
      let s := s.modBlk b (fun k => { k with engstat := k.engstat ||| b32 (2 ^ eng) })
      if !s.fwUp then s
      else
        let s := s.modAon (fun x => { x with engHangs := x.engHangs.filter (fun h => s.ticks < h.2.2 + 100000000) ++ [(b, eng, s.ticks)] })
        (s.startEngine { kind := .engine, part := s.partOfBlk b, unit := 4 * b + eng, tick := s.ticks, time := s.pktime, level := 2, cause := 1 }).2)

/-- ENGINE_RESET_LIMIT: an engine reset not done within 2 ms: the partition is reset. `tick` of its current phase counts from
at most 1 ms after its start, so the limit is met 1 ms into the phase after the drain, or 2 ms into the drain. -/
def execEngineResetLimit (b eng : Nat) (s : State) : Res :=
  if nBlocks ≤ b || 4 ≤ eng then .fault (.noSuchUnit "engine" (4 * b + eng))
  else .next (
    match s.aon.acts.find? (fun a => a.kind == .engine && a.unit == 4 * b + eng) with
    | none => s
    | some a => if (if a.phase ≤ 1 then 200000 else 100000) + a.tick ≤ s.ticks then s.escalate a.part else s)

/-! ## The search (R457, R459) -/

/-- A suspect's replay starts. -/
def State.startReplay (s : State) (x : Suspect) : State :=
  let s := (s.modSusp x (fun y => { y with verdict := 1 })).modBlk x.eblk (fun k => { k with wd := cset 0 k.wd x.engine 0 })
  if x.engine = 3 then s.modQp (islOfBlk x.blk) x.id (fun k => { k with spsn := k.una, timer := some s.ticks })
  else if x.engine = 2 && x.id = 256 then s.modBlk x.blk (fun k => { k with cacheStuck := true })
  else if x.engine = 2 || x.id = 16 then x.accs.foldl (fun s a => s.cacheAccess x.blk a) s
  else s.modChan x.blk x.id (fun c => { c with descs := x.descs.map (fun d => { d.again with start := s.ticks }) })

/-- Has the replayed work completed? -/
def State.replayed (s : State) (x : Suspect) : Bool :=
  if x.engine = 3 then let k := s.qp (islOfBlk x.blk) x.id; k.stat != 1 || k.works.isEmpty
  else if x.engine = 2 && x.id = 256 then !(s.blk x.blk).cacheBusy
  else if x.engine = 2 || x.id = 16 then
    !(s.blk x.blk).misses.any (fun m => !m.wb && x.accs.any (fun a => a.sport == m.acc.sport && a.tag == m.acc.tag))
  else ((s.blk x.blk).chan x.id).descs.isEmpty

/-- The search of an engine ends: the suspects that are neither guilty nor unresolved resume, and the hang is recorded, as
transient with no guilty suspect. -/
def State.searchEnd (s : State) (b e : Nat) : State :=
  let xs := s.aon.susp.filter (fun x => x.isOf b e)
  let s := s.setSusp (fun l => l.filter (fun x => !x.isOf b e))
  let s := if s.aon.susp.any (fun x => x.eblk == b) then s else s.modBlk b (fun k => { k with engstat := k.engstat &&& 0xFFFFFFEF#32 })
  s.logBlk b 0x10 [e, xs.length, (xs.filter (fun x => x.verdict == 3)).length, (xs.filter (fun x => x.verdict == 4)).length]

/-- GUILTY_PARTY_REPLAY: the search of an engine goes on: a replay that has completed clears its suspect, one that hangs the
engine convicts it and the engine is reset again; then the next suspect, in order, is replayed. A suspect of two searches
takes the outcome of the first. -/
def execGuiltyPartyReplay (b eng : Nat) (s : State) : Res :=
  if nBlocks ≤ b || 4 ≤ eng then .fault (.noSuchUnit "engine" (4 * b + eng))
  else .next (
    let xs := s.aon.susp.filter (fun x => x.isOf b eng)
    if !s.fwUp || !(s.blk b).engstat.getLsbD 4 || s.aon.acts.any (fun a => a.kind == .engine && a.unit == 4 * b + eng) then s
    else match xs.find? (fun x => x.verdict == 1) with
      | some x =>
        if s.replayed x then s.modSusp x (fun y => { y with verdict := 2 })
        else if s.engHung b eng then
          let s := s.modSusp x (fun y => { y with verdict := 5 })
          let a : Action := { kind := .engine, part := s.partOfBlk b, unit := 4 * b + eng, tick := s.ticks, time := s.pktime, tries := 1, level := 2,
                              cause := 1 }
          match s.beginAct a with
          | none => s
          | some s =>
            (s.modBlk b (fun k => { k with engstat := k.engstat ||| b32 (2 ^ eng) })).engineStep a
        else s
      | none =>
        match xs.find? (fun x => x.verdict == 0) with
        | none => s.searchEnd b eng
        | some x =>
          match s.aon.susp.find? (fun y => y.alike x && !y.isOf b eng && y.verdict != 0) with
          | some y => if y.verdict = 1 || y.verdict = 5 then s else s.modSusp x (fun z => { z with verdict := y.verdict })
          | none => s.startReplay x)

end Sys2Proof.Machine
end

