-- ==== Sys2Proof/Machine/TimeLog.lean ====
section
/-!
DEFINITION. Package time, the ticks that count every timeout, the error log and the counters (R49 to R53, R201 to R203,
R441, R442, R492 to R502).
-/

namespace Sys2Proof.Machine

/-! ## Island counters (R497, R498; Table 21-3) -/

/-- Counter `k` of an island counts a step: 48 bits with the extension above them; all ones hold, and are logged once. -/
def State.bump (s : State) (i k : Nat) : State :=
  let q := s.isl i
  let v := q.counter k
  if v = BitVec.allOnes 64 then
    if k ∈ q.cntSat then s else (s.setIsl i { q with cntSat := k :: q.cntSat }).logEvent 1 i 0x53 q.part [k]
  else
    let s := s.setIsl i { q with cnt := lset q.cnt k (v + 1) }
    if v.toNat % 2 ^ 48 = 2 ^ 48 - 1 then s.logEvent 1 i 0x52 q.part [k, v.toNat / 2 ^ 48 + 1] else s

def State.bumpIf (s : State) (b : Bool) (i k : Nat) : State := if b then s.bump i k else s

/-- Does a slot of the island satisfy a test? A core? A block? -/
def State.slotIn (s : State) (i : Nat) (t : Slot → Bool) : Bool := s.slots.any (fun e => slotIsl e.1 == i && t e.2)
def State.coreIn (s : State) (i : Nat) (t : Cobble → Bool) : Bool := s.cobs.any (fun e => islOf e.1 == i && t e.2)
def State.blkIn (s : State) (i : Nat) (t : Block → Bool) : Bool := s.blks.any (fun e => islOfBlk e.1 == i && t e.2)

/-- One step of an island (notes/assumptions/40.md): its counters count by the conditions that last through a step. EV3, EV4 and EV5
count the steps in which their event occurred. -/
def State.islStep (s : State) (i : Nat) : State :=
  let q := s.isl i
  if !q.powered || q.brown then s
  else
    let mat := s.slotIn i (fun k => k.fly.any (·.engine == 0))
    let lane := s.slotIn i (fun k => k.fly.any (·.engine != 0))
    let wait := s.blkIn i (fun k => !k.niq.isEmpty)
    let s := s.modIsl i (fun k => { k with evSeen := [] })
    ((((((((s.bump i 0).bumpIf mat i 1).bumpIf lane i 2).bumpIf (q.evSeen.contains 3) i 3).bumpIf (q.evSeen.contains 4) i 4).bumpIf
      (q.evSeen.contains 5) i 5).bumpIf wait i 6).bumpIf q.parked i 7)

/-- Every island takes one step, and its shadow of package time catches up (R50). -/
def State.idle (s : State) : State :=
  (List.range 10).foldl (fun s i => (s.islStep i).modIsl i (fun k => { k with caughtUp := true })) s

/-- CNT_WRAP: the counter stands at all ones in its 48 bits, and the next step carries into the extension. -/
def execCntWrap (i ev : Nat) (s : State) : Res :=
  onIsl i s fun s => if ev < 8 && ((s.isl i).counter ev).toNat % 2 ^ 48 = 2 ^ 48 - 1 then s.bump i ev else s

/-- STEPCNT_LO_READ: a read of counter `ev`'s LO register latches its upper bits and extension. -/
def execStepcntLoRead (i ev : Nat) (s : State) : Res :=
  onIsl i s fun s =>
    if ev < 8 then s.modIsl i (fun k => { k with cntHi := lset k.cntHi ev (BitVec.ofNat 32 ((k.counter ev).toNat / 2 ^ 32)) }) else s

/-- CNT_SAT: the oldest saturation of a counter is logged, naming the counter (R500). -/
def execCntSat (s : State) : Res :=
  .next (
    match s.satDue with
    | [] => s
    | (kind, id, n) :: rest =>
      let part := if kind = 2 then s.partOfBlk id else if kind = 1 then (s.isl id).part else 0xFF
      { s with satDue := rest }.logEvent kind id 0x53 part [n])

/-! ## Ticks (R49 to R52, R201) -/

/-- Is every core of an island waiting? Fenced ones and those of an island under self-test count as waiting (R201, R469,
R510). -/
def State.allWaiting (s : State) (i : Nat) : Bool :=
  (s.isl i).stRun.isSome ||
    s.cobs.all (fun e => islOf e.1 != i || e.2.waits || (s.blk (blkOf e.1)).fence || (s.blk (blkOf e.1)).rstFence)

/-- The edge of a tick at an island's control stop: a whole all-waiting tick counts in WAITACC and toward THR. -/
def State.islTick (s : State) (i : Nat) : State :=
  let now := s.allWaiting i
  s.modIsl i (fun k =>
    if k.waitedAll && now then { k with waitacc := k.waitacc + 1, waitRun := k.waitRun + 1, caughtUp := false }
    else { k with waitRun := 0, waitedAll := now, caughtUp := false })

/-- The local count after one tick: held while a realignment is behind it (R49). -/
def State.advance (s : State) : State :=
  match s.aon.holdTo with
  | none => { s with pkPrev := s.pktime, pktime := s.pktime + 1 }
  | some v =>
    if v + 1 = s.pktime then { s with pkPrev := s.pktime }.modAon (fun a => { a with holdTo := none })
    else { s with pkPrev := s.pktime }.modAon (fun a => { a with holdTo := some (v + 1) })

/-- One tick passes: package time, every timeout's tick count, the watchdogs (MWDOG counts whole microseconds of ticks), the
actions whose island is held by a brown-out (R447), the waits of the islands. -/
def State.elapse (s : State) : State :=
  let s := { s.advance with ticks := s.ticks + 1 }
  let s := s.wdTick
  let s := s.modAon (fun a => { a with
    remain := if s.ticks % 100 = 0 then a.remain - 1 else a.remain,
    acts := a.acts.map (fun x => if (s.islsOf x.part).any (fun i => (s.isl i).brown) then { x with tick := x.tick + 1 } else x) })
  (List.range 10).foldl State.islTick s

/-- TIMEREF_EDGE: a rising edge is counted, from PWRGOOD on. -/
def execTimerefEdge (s : State) : Res :=
  .next (if s.aon.pwrgood then (s.modAon (fun a => { a with edges := true, counting := true })).elapse else s)

/-- RING_OSCILLATOR_TICK: while no TIMEREF edge is counted, the ring oscillator advances package time. -/
def execRingOscillatorTick (s : State) : Res := .next (if s.aon.counting || !s.aon.pwrgood then s else s.elapse)

/-- TIMEREF_LOSS: 200 ns have passed without an edge, after at least one (R52). -/
def execTimerefLoss (s : State) : Res :=
  .next (
    if !s.aon.counting || !s.aon.pwrgood then s
    else
      let s := { s with approx := true }.modAon (fun a => { a with counting := false, tbLost := true, lostcnt := satInc a.lostcnt })
      s.logAon 0x33 [s.aon.lostcnt.toNat])

/-- Package time is set: every shadow takes the new value a fixed delay later, one tick behind it until then (R50). -/
def State.setTime (s : State) (v : BitVec 64) : State :=
  let s := { s with pktime := v, pkPrev := if v = 0 then 0 else v - 1 }.modAon (fun a => { a with holdTo := none })
  (List.range 10).foldl (fun s i => s.modIsl i (fun k => { k with caughtUp := false })) s

/-- TIME_MESSAGE: a hub time message with its value (notes/assumptions/41.md): the first sets package time; a later one
jumps forward or holds the count; APPROX clears while edges are counted (R49, R52). -/
def execTimeMessage (value : BitVec 64) (s : State) : Res :=
  .next (
    if !s.aon.pwrgood then s
    else
      let s := if s.aon.counting then { s with approx := false } else s
      if !s.aon.tbValid then (s.modAon (fun a => { a with tbValid := true })).setTime value
      else if value < s.pktime then s.modAon (fun a => { a with holdTo := some value })
      else s.setTime value)

/-- PKTIME_LO_READ: the upper half is latched into PKTIME_HI. -/
def execPktimeLoRead (s : State) : Res :=
  .next (s.modAon (fun a => { a with pkHi := BitVec.ofNat 32 (s.pktime.toNat / 2 ^ 32) }))

/-! ## The log store (R492, R493, R495) -/

/-- The next slot to be written: the oldest, and among those opened in its tick the lowest SRCKIND, then SRCID. -/
def nextSlot : List LogSlot → Option LogSlot
  | [] => none
  | l :: ls => some (ls.foldl (fun m x =>
      if x.time = l.time && (x.kind < m.kind || (x.kind = m.kind && x.id < m.id)) then x else m) l)

/-- A slot's record. -/
def LogSlot.record (l : LogSlot) (seq : BitVec 32) : LogRec :=
  { seq := seq, time := l.time, event := l.event,
    flags := boolNat l.approx + 2 * boolNat l.mixed + 4 * boolNat (decide (0xFFFF ≤ l.coal)),
    part := l.part, kind := l.kind, id := l.id, coal := min l.coal 0xFFFF, data := l.data }

/-- Records not yet sent are copied in SEQ order over virtual channel 3 of a management port in service (R493). -/
def State.sendLogs (s : State) : State :=
  match s.mgmtPort with
  | none => s
  | some p =>
    let due := s.aon.log.filter (fun r => !r.sent)
    let s := due.foldl (fun s r => s.sendMsg p 3 (Config.copyMsg 0 r.seq.toNat r.bytes)) s
    s.modAon (fun a => { a with log := a.log.map (fun r => { r with sent := true }) })

/-- LOG_RECORD_WRITE: the log engine writes one slot as a record; a full ring overwrites its oldest. -/
def execLogRecordWrite (s : State) : Res :=
  .next (
    match nextSlot s.logSlots with
    | none => s
    | some l =>
      let a := s.aon
      let full : Bool := decide (4096 ≤ a.log.length)
      let lost := if full && !(a.log.head?.map (·.copied)).getD true then satInc a.loglost else a.loglost
      let s := { s with logSlots := s.logSlots.erase l }.satLog 0 0 0 a.loglost lost
      (s.modAon (fun x => { x with
        log := (if full then x.log.drop 1 else x.log) ++ [l.record x.logseq], logseq := x.logseq + 1, loglost := lost })).sendLogs)

/-- The first record that is sent and not copied is copied. -/
def ackLog : List LogRec → List LogRec
  | [] => []
  | r :: rs => if r.sent && !r.copied then { r with copied := true } :: rs else r :: ackLog rs

/-- LOG_COPY_ACK: the hub acknowledges the frame of a copied record. -/
def execLogCopyAck (s : State) : Res := .next ((s.modAon (fun a => { a with log := ackLog a.log })).sendLogs)

end Sys2Proof.Machine
end

