-- ==== Sys2Proof/Machine/Power.lean ====
section
/-!
DEFINITION. Power, droop and ageing: readings, the steward, alerts, brown-out, sentinels and the margin re-plan (R471 to R491,
R526, R527, R533; Tables 20-1 to 20-5). Signatures are kept in µW and relative power factors in units of 2^-16; the rules'
divisions round down (notes/assumptions/43.md).
-/

namespace Sys2Proof.Machine

/-! ## Prediction and learning (R474) -/

/-- Relative power factor of an operating point, written at test, in units of 2^-16: F[4] = 1. -/
def State.relF (s : State) (op : Nat) : Nat := if op = 4 then 65536 else s.fuse 15 op

/-- Signature entry of an island's current phase: 70 W where nothing has been learned. -/
def Island.sig (k : Island) : Nat := lget 70000000 k.sigs k.phase.toNat

/-- The highest operating point that the steward grants (R477, R489). -/
def Island.limit (k : Island) : Nat := min k.opmax k.cap

/-- The operating point at which an island counts in the steward's prediction: the parking one while parked (R475). -/
def Island.assumed (wake : Bool) (k : Island) : Nat := if k.parked && !wake then k.waitctl.toNat / 2 ^ 24 % 8 else k.grant

/-- Predicted power of the powered islands at given operating points, in 2^-16 µW. -/
def State.predict (s : State) (op : Island → Nat) : Nat :=
  (List.range 10).foldl (fun acc i => let k := s.isl i; if k.powered then acc + k.sig * s.relF (op k) else acc) 0

/-- A signature entry after an error `e` of a prediction `n`, both in 2^-16 µW: clamped to 0 to 120 W. F cancels in R474's
formula; an island with F = 0 contributes nothing. -/
def learnSig (sig n : Nat) (e : Int) : Nat := (max 0 (min 120000000 ((sig : Int) + e * sig / (16 * n)))).toNat

/-- Learning from a reading of PVN + PVS in mW. -/
def State.learn (s : State) (mw : Nat) : State :=
  let n := s.predict (·.cur)
  if n = 0 then s
  else
    let e : Int := (mw * 1000 * 65536 : Nat) - (n : Int)
    (List.range 10).foldl (fun s i =>
      let k := s.isl i
      if k.powered && s.relF k.cur != 0 then
        s.setIsl i { k with sigs := lset k.sigs k.phase.toNat (learnSig k.sig n e) }
      else s) s

/-! ## Wait fractions (R203, R482) -/

/-- Change of WAITACC per tick between two samples, times `u`. -/
def waitFrac (u : Nat) (a b : Nat × BitVec 32) : Nat := if b.1 ≤ a.1 then 0 else (b.2 - a.2).toNat * u / (b.1 - a.1)

/-- An island's wait fraction over the last 1 ms: its samples are taken at the readings, 20 of them to a millisecond. -/
def Island.waitMsFrac (k : Island) : Nat :=
  match k.waitMs.head?, k.waitMs.getLast? with
  | some b, some a => waitFrac (2 ^ 64) a b
  | _, _ => 0

/-- Every island's WAITACC is sampled. -/
def State.sampleWait (s : State) : State :=
  (List.range 10).foldl (fun s i => s.modIsl i (fun k => { k with waitMs := ((s.ticks, k.waitacc) :: k.waitMs).take 21 })) s

/-! ## The steward (R472, R475, R476) -/

/-- Readings left in a window of `n` with a limit on their sum, in mW. -/
def windowRoom (limit n : Nat) (reads : List Nat) : Int := (n * limit * 1000 : Nat) - ((reads.take (n - 1)).foldl (· + ·) 0 : Nat)

/-- Is a prediction in 2^-16 µW at most an allowance in mW? -/
def within (n : Nat) (mw : Int) : Bool := decide ((n : Int) ≤ mw * 1000 * 65536)

/-- The island that is lowered next: the highest wait fraction above OP0, ties to the highest ID, pinned ones last. -/
def State.lowerNext (s : State) : Option Nat :=
  let up := (List.range 10).filter (fun i => (s.isl i).powered && (s.isl i).grant != 0)
  let free := up.filter (fun i => !(s.isl i).pin)
  (if free.isEmpty then up else free).foldl (fun m i =>
    match m with
    | none => some i
    | some x => if (s.isl x).waitMsFrac ≤ (s.isl i).waitMsFrac then some i else m) none

/-- Lowers apply in full. Each pass lowers one grant, and there are at most 70. -/
def State.lower (s : State) (l : Int) : Nat → State
  | 0 => s
  | n + 1 =>
    if within (s.predict (Island.assumed false)) l then s
    else match s.lowerNext with
      | none => s
      | some i => (s.modIsl i (fun k => { k with grant := k.grant - 1 })).lower l n

/-- The island that may be raised: the lowest wait fraction below its limit, ties to the lowest ID. -/
def State.raiseNext (s : State) : Option Nat :=
  ((List.range 10).filter (fun i => (s.isl i).powered && decide ((s.isl i).grant < (s.isl i).limit))).foldl (fun m i =>
    match m with
    | none => some i
    | some x => if (s.isl i).waitMsFrac < (s.isl x).waitMsFrac then some i else m) none

/-- One raise, if the prediction and the prediction with every lender awake allow it. -/
def State.raise (s : State) (l peak : Int) : State :=
  match s.raiseNext with
  | none => s
  | some i =>
    let t := s.modIsl i (fun k => { k with grant := k.grant + 1 })
    if within (t.predict (Island.assumed false)) l && within (t.predict (Island.assumed true)) peak then t else s

/-- The steward's allocation after a reading: none before the first budget (R435), nor from an alert until it resumes (R480). -/
def State.allocate (s : State) : State :=
  let a := s.aon
  if a.sustained = 0 || !a.alertN || a.alertRel.isSome then s
  else
    let peak := windowRoom a.peak 20 a.reads
    let l := min peak (windowRoom a.sustained 2000 a.reads)
    let t := s.lower l 70
    let above : Bool := !within (t.predict (Island.assumed false)) l && t.lowerNext.isNone
    let t := if above then
        (if a.infeasible then t else (t.modAon (fun x => { x with infeasible := true })).logAon 0x32 [1])
      else t.raise l peak
    (List.range 10).foldl State.opMove t

/-! ## Readings (R471, R473, R475, R483) -/

/-- One reading: energy, windows, learning, allocation. -/
def State.reading (s : State) (pp : Nat) (m : List Byte) : State :=
  let pvn := fld m 4 4
  let pvs := fld m 8 4
  let r := pvn + pvs + fld m 12 4
  let q := BitVec.ofNat 16 (fld m 2 2)
  let a := s.aon
  let gap := if a.lastRead.isSome && !a.reads.isEmpty then (q - a.readSeq - 1).toNat else 0
  let miss := BitVec.ofNat 32 (min (2 ^ 32 - 1) (a.energyMiss.toNat + gap))
  let uj := r + a.energyRem
  let s := (s.satLog 0 0 3 a.energyMiss miss).modAon (fun a => { a with
    reads := (r :: a.reads).take 1999, lastRead := some s.ticks, readSeq := q, readPort := pp, missing := 0, energyMiss := miss,
    energy := a.energy + BitVec.ofNat 64 (uj / 20), energyRem := uj % 20 })
  ((s.learn (pvn + pvs)).sampleWait).allocate

/-- POWER_READING: the oldest message of virtual channel 0 is a power reading. On an island packet port it is dropped and
logged. -/
def execPowerReading (pp : Nat) (s : State) : Res :=
  onPp pp s fun s =>
    if 10 ≤ pp && !s.fwUp then s
    else match s.popMsg pp 0 (fun m => fld m 0 1 == 0xE0) with
      | none => s
      | some (m, s) => if pp < 10 then s.logEvent 4 pp 0x24 (s.isl pp).part [0xE0] else s.reading pp m

/-- READINGS_MISSING: 200 µs without a reading; after 1 ms every grant is at most OP2, and a record is written (R473). -/
def execReadingsMissing (s : State) : Res :=
  .next (
    match s.aon.lastRead with
    | none => s
    | some t =>
      if !s.fwUp then s
      else if t + 100000 ≤ s.ticks && s.aon.missing < 2 then
        let s := (s.modAon (fun a => { a with missing := 2, statFlags := a.statFlags ||| 2 })).logAon 0x32 [0]
        (List.range 10).foldl (fun s i => (s.modIsl i (fun k => { k with grant := min k.grant 2 })).opMove i) s
      else if t + 20000 ≤ s.ticks && s.aon.missing = 0 then
        s.modAon (fun a => { a with missing := 1, statFlags := a.statFlags ||| 2 })
      else s)

/-- ENERGY_LO_READ. -/
def execEnergyLoRead (s : State) : Res :=
  .next (s.modAon (fun a => { a with energyHi := BitVec.ofNat 32 (a.energy.toNat / 2 ^ 32) }))

/-! ## Commands (R472, R477, R482, R490) -/

/-- SET_BUDGET: it takes effect at the next reading. -/
def execSetBudget (s : State) : Res :=
  fwM 0x70 s fun i s =>
    let su := i.fld 32 2
    let pk := i.fld 34 2
    if su < 100 || 720 < su || pk < su || 900 < pk then failR stBadParam s
    else okR (s.modAon (fun a => { a with sustained := su, peak := pk, infeasible := false }))

/-- SET_OPCAP: one byte per island. -/
def execSetOpcap (s : State) : Res :=
  fwM 0x72 s fun i s =>
    let by_ := fun n => i.fld (32 + n) 1
    if (List.range 10).any (fun n => by_ n != 0xFF && 32 ≤ by_ n) then failR stBadParam s
    else okR (((List.range 10).filter (fun n => by_ n != 0xFF)).foldl (fun s n =>
      let v := by_ n
      let s := s.modIsl n (fun k =>
        let k := { k with opmax := v % 8, nopark := bit v 3, pin := bit v 4 }
        { k with grant := min k.grant k.limit })
      s.setWaitctl n (((s.isl n).waitctl &&& 0x7FFFFFFF#32) ||| (if bit v 3 then 0 else 0x80000000#32))) s)

/-- WAITSTAT of an island (Table 07-9). -/
def State.waitstat (s : State) (i : Nat) : Nat := boolNat (s.isl i).parked * 2 ^ 31 + boolNat (s.allWaiting i) * 2 ^ 30

/-- READ_TELEMETRY: for each island WAITACC, WAITSTAT, the operating point and the step counter, then ENERGY; the layout is
open (notes/assumptions/32.md). -/
def execReadTelemetry (s : State) : Res :=
  fwM 0x71 s fun _ s =>
    dataR (Config.replyData 0x71 ((List.range 10).flatMap (fun i =>
      let k := s.isl i
      [k.waitacc.toNat, s.waitstat i, k.cur, k.grant, k.limit, boolNat k.parked, boolNat (k.present && !(s.partn k.part).lost), (k.counter 0).toNat])
      ++ [s.aon.energy.toNat])) s

/-- READ_AGEING: records in ring order; the bytes of a place that no re-plan has written are open (notes/assumptions/32.md). -/
def execReadAgeing (s : State) : Res :=
  fwM 0x73 s fun i s =>
    let f := i.fld 32 2
    let n := i.fld 34 2
    if 511 < f || n = 0 || 60 < n then failR stBadParam s
    else dataR ((List.range n).flatMap (fun j =>
      match lget [] s.aon.nvAge ((f + j) % 512) with
      | [] => ((Config.replyData 0x73 [(f + j) % 512]) ++ List.replicate 136 0).take 136
      | r => r)) s

/-- Status byte of an island (Table 20-2). -/
def Island.opsByte (k : Island) : Nat := k.grant + k.limit * 8 + boolNat k.parked * 64 + boolNat (!(k.present)) * 128

/-- POWER_STATUS_MESSAGE: every 1 ms on the management port that delivered the last reading (R482). A LOST island reads as
absent (R469). -/
def execPowerStatusMessage (s : State) : Res :=
  .next (
    let a := s.aon
    if !s.fwUp || s.ticks < a.statTick + 100000 then s
    else
      let is := (List.range 10).map (fun i =>
        let k := s.isl i
        { k with present := k.present && !(s.partn k.part).lost })
      let wf := is.map (fun k => BitVec.ofNat 8 (if k.present then min 255 (waitFrac 256 k.waitSt (s.ticks, k.waitacc)) else 255))
      let ops := is.map (fun k => BitVec.ofNat 8 k.opsByte)
      let m := [0xE1#8, BitVec.ofNat 8 a.statFlags] ++ toBytes 2 a.statSeq.toNat ++ wf ++ ops ++ toBytes 8 s.pktime.toNat
      let s := (s.sendMsg a.readPort 0 m).modAon (fun x => { x with statTick := s.ticks, statSeq := x.statSeq + 1, statFlags := 0 })
      (List.range 10).foldl (fun s i => s.modIsl i (fun k => { k with waitSt := (s.ticks, k.waitacc) })) s)

/-! ## Regulators, alerts and brown-out (R476, R479 to R481, R527, R533) -/

/-- REGULATOR_SETTLED. -/
def execRegulatorSettled (i : Nat) (s : State) : Res :=
  onIsl i s fun s => if (s.isl i).slew then s.modIsl i (fun k => { k with slew := false, quiet := s.ticks }) else s

/-- ALERT_N_ASSERT: every regulator is ordered to its OP0 entry. -/
def execAlertNAssert (s : State) : Res :=
  .next (
    if !s.aon.alertN then s
    else
      let n := satInc s.aon.alertcnt
      let s := s.modAon (fun a => { a with
        alertN := false, alertcnt := n, alertAt := s.pktime, alertRel := none, statFlags := a.statFlags ||| 1 })
      (List.range 10).foldl State.opMove s)

/-- The timeout of SWEEP has stood still during an alert (R349). -/
def State.sweepStill (s : State) (d : Nat) : State :=
  { s with ports := s.ports.map (fun e =>
    if e.2.st = 1 && e.2.ph = 3 then (e.1, { e.2 with phTick := min s.ticks (e.2.phTick + d) }) else e) }

/-- ALERT_N_RELEASE: the alert is logged with its two times. -/
def execAlertNRelease (s : State) : Res :=
  .next (
    if s.aon.alertN then s
    else
      let s := (s.modAon (fun a => { a with alertN := true, alertRel := some s.ticks })).logAon 0x31 [s.aon.alertAt.toNat, s.pktime.toNat]
      let s := s.sweepStill (s.pktime - s.aon.alertAt).toNat
      (List.range 10).foldl (fun s i => s.modIsl i (fun k => { k with quiet := s.ticks })) s)

/-- ALERT_RELEASE_DELAY: 1 ms after the release every grant is OP0, and allocation resumes. -/
def execAlertReleaseDelay (s : State) : Res :=
  .next (
    match s.aon.alertRel with
    | none => s
    | some t =>
      if s.ticks < t + 100000 || !s.fwUp then s
      else (List.range 10).foldl (fun s i => (s.modIsl i (fun k => { k with grant := 0 })).opMove i)
        (s.modAon (fun a => { a with alertRel := none })))

/-- BROWNOUT_HOLD_START: the island's voltage fell below 0.45 V; every stage holds. -/
def execBrownoutHoldStart (i : Nat) (s : State) : Res :=
  onIsl i s fun s =>
    let k := s.isl i
    if k.brown || !k.powered then s
    else
      let n := satInc k.droopcnt
      (s.satLog 1 i 8 k.droopcnt n).setIsl i { k with brown := true, brownTick := s.ticks, droopcnt := n }

/-- BROWNOUT_HOLD_END: the voltage returned above 0.47 V. -/
def execBrownoutHoldEnd (i : Nat) (s : State) : Res :=
  onIsl i s fun s => if (s.isl i).brown then s.modIsl i (fun k => { k with brown := false, quiet := s.ticks }) else s

/-- An island is to be reported absent from the next start (R489, R527). -/
def State.failIsl (s : State) (i : Nat) : State := s.modAon (fun a => { a with nvFailed := insertNat i a.nvFailed })

/-- BROWNOUT_REGULATOR_FAIL: a hold has lasted 10 ms: the partition is reset; at the second such hold within one reset it is
LOST. A hold counts once. An island with no partition is absent. -/
def execBrownoutRegulatorFail (i : Nat) (s : State) : Res :=
  onIsl i s fun s =>
    let k := s.isl i
    if !k.brown || s.ticks < k.brownTick + 1000000 || !s.fwUp then s
    else
      let s := (s.setIsl i { k with brownTick := s.ticks + 2 ^ 64, brownFails := 1 }).failIsl i
      if k.part = 0xFF then s.modIsl i (fun k => { k with present := false, powered := false, brown := false })
      else match s.aon.acts.find? (fun a => a.kind == .reset && a.part == k.part) with
        | none => s.escalate k.part
        | some a => if k.brownFails = 0 then s else s.losePart k.part a.phase

/-- THERMAL_TRIP: the highest reading of the sensors is `temp` °C, of `sensor` (10: the always-on island); from 125 °C the alert
hardware trips (R533). -/
def execThermalTrip (sensor temp : Nat) (s : State) : Res :=
  if 10 < sensor then .fault (.noSuchUnit "sensor" sensor)
  else .next (
    if !s.aon.vaon then s
    else
      let t := min temp 255
      let s := s.modAon (fun a => { a with tnow := t, hotsrc := sensor, maxt := max a.maxt t })
      if temp < 125 then s
      else (List.range 10).foldl State.opMove (s.modAon (fun a => { a with trip := true, thermTrip := true })))

/-! ## Ageing (R485 to R490) -/

/-- SENTINEL_MEASUREMENT: sentinel `j` of island `i` has counted `data` periods of its data-path replica and `matched` of its
matched delay in 100 µs; `test` is the count of its data path recorded at test. A span with a slew, a hold or an alert is
discarded. A negative result or a replica that does not oscillate has no stated value: a free one. -/
def execSentinelMeasurement (i j data matched test : Nat) (s : State) : Res :=
  onIsl i s fun s =>
    let k := s.isl i
    if 4 ≤ j || k.slew || k.brown || !s.aon.alertN || s.ticks < k.quiet + 10000 then s
    else
      let (f, s) := if data = 0 || data < matched || test < data then s.draw else (0, s)
      let m := if data = 0 || data < matched then f.toNat % 65536 else (data - matched) * 10000 / data
      let a := if data = 0 || test < data then f.toNat / 65536 % 65536 else min 0xFFFF ((test - data) * 10000 / data)
      s.modIsl i (fun k => { k with sent := lset k.sent j (BitVec.ofNat 16 a ++ BitVec.ofNat 16 m) })

/-- STEP_TIME_SAMPLE: a 50 µs interval in which the island held one operating point had `steps` steps (R486). -/
def execStepTimeSample (i steps : Nat) (s : State) : Res :=
  onIsl i s fun s =>
    let k := s.isl i
    if !k.powered || k.slew || k.brown || !s.aon.alertN || s.ticks < k.quiet + 5000 || steps = 0 then s
    else
      let (n, st) := lget (0, 0) k.slow k.cur
      s.setIsl i { k with slow := lset k.slow k.cur (n + 1, st + steps) }

/-- Target step times of Table 02-1 in ps. -/
def targetPs (op : Nat) : Nat := [1800, 1450, 1150, 950, 800, 730, 660, 620].getD op 1

/-- Slowdown of an operating point in millionths, where it was held. -/
def Island.slowdown (k : Island) (op : Nat) : Option Int :=
  let (n, st) := lget (0, 0) k.slow op
  if st = 0 then none else some ((n * 50000000 * 1000000 / (st * targetPs op) : Nat) - (1000000 : Int))

/-- The largest measured slowdown; 0 where nothing was measured. -/
def maxSlow (l : List Int) : Int :=
  match l with
  | [] => 0
  | x :: xs => xs.foldl max x

/-- Least MARGIN of the four sentinels, in 0.01% units. -/
def Island.margin (k : Island) : Nat :=
  (List.range 4).foldl (fun m j => min m ((lget 0 k.sent j).toNat % 65536)) 65535

/-- Voltage entry and ceiling of an operating point written at test (R488). -/
def State.testEntry (s : State) (i op : Nat) : Nat := s.fuse 12 (i * 8 + op)
def State.ceiling (s : State) (i op : Nat) : Nat := min (s.testEntry i op + 40) (opRange op).2

/-- The entry of one operating point in a re-plan: `base` its slowdown and `sl` that with the raise, in millionths; G in mV per
1%. MARGIN_CAPPED is raised once for each operating point whose entry would exceed its ceiling (R489). At a start an entry that measures more than 1.00% fast falls by 5 mV, not below its test entry. -/
def State.replanOp (s : State) (i op : Nat) (base sl : Int) (start : Bool) : State :=
  let k := s.isl i
  let v0 := lget 0 k.ventry op
  if sl > 5000 then
    let v := v0 + 5 * ((sl.toNat * s.fuse 16 (i * 8 + op) + 49999) / 50000)
    if v > lget 0 k.vceil op then
      let s' := (s.setIsl i { k with cap := min k.cap (op - 1), capped := insertNat op k.capped }).modAon
        (fun a => { a with statFlags := a.statFlags ||| 4 })
      if k.capped.contains op then s' else s'.logEvent 1 i 0x30 k.part [op, v]
    else s.setIsl i { k with ventry := lset k.ventry op v, slew := k.slew || (op == k.cur && k.powered) }
  else if start && base < -10000 then
    s.setIsl i { k with ventry := lset k.ventry op (max (s.testEntry i op) (v0 - 5)) }
  else s

/-- An island's re-plan (R487 to R489), and whether it can no longer hold its margin. -/
def State.replanIsl (s : State) (i : Nat) (sl : Nat → Option Int) (start : Bool) : Bool × State :=
  let k := s.isl i
  let m := k.margin
  let up : Bool := decide (m < 400) && decide (k.mdcode < 31)
  let top := maxSlow ((List.range 8).filterMap sl)
  let one := fun op => (sl op).getD top
  let add : Int := if up then 10000 else 0
  let bad : Bool := decide (one 0 + add > 5000)
    && decide (lget 0 k.ventry 0 + 5 * (((one 0 + add).toNat * s.fuse 16 (i * 8) + 49999) / 50000) > lget 0 k.vceil 0)
  let s := if start then s.setIsl i { k with cap := 7, capped := (List.range 8).filter (fun o => k.cap < o) } else s
  let s := (List.range 8).foldl (fun s op => s.replanOp i op (one op) (one op + add) start) s
  let s := s.modIsl i (fun k => { k with mdcode := if up then k.mdcode + 1 else k.mdcode, slow := [] })
  (bad || (decide (m < 200) && k.mdcode == 31), s)

/-- An island's part of an ageing record (Table 20-3). -/
def Island.ageing (k : Island) (slow : Int) : List Byte :=
  toBytes 12 (k.margin + min 65535 (slow / 100).toNat * 2 ^ 16 + k.mdcode * 2 ^ 32 + k.cap * 2 ^ 40
    + boolNat (!k.present) * 2 ^ 47 + lget 0 k.ventry 4 * 2 ^ 48 + lget 0 k.ventry k.cap * 2 ^ 64)

/-- The margin section of the saved-settings record takes the islands' values (R425, R489). -/
def State.saveMargins (s : State) : State :=
  s.modAon (fun a => { a with nvSaved := a.nvSaved.map (fun r => { r with
    ventry := (List.range 80).foldl (fun t n => lset t n (lget 0 (s.isl (n / 8)).ventry (n % 8))) r.ventry,
    mdcode := (List.range 10).foldl (fun t i => lset t i (s.isl i).mdcode) r.mdcode,
    cap := (List.range 10).foldl (fun t i => lset t i (s.isl i).cap) r.cap }) })

/-- The re-plan's record joins the ring of 512 (R490). -/
def State.ageRecord (s : State) (kind : Nat) (slow : Nat → Int) : State :=
  let r := toBytes 8 s.pktime.toNat ++ toBytes 4 s.aon.ageSeq ++ toBytes 1 kind ++ toBytes 1 (boolNat s.approx) ++ toBytes 2 0
    ++ (List.range 10).flatMap (fun i => (s.isl i).ageing (slow i))
  s.saveMargins.modAon (fun a => { a with
    nvAge := lset a.nvAge (a.ageSeq % 512) r, ageLast := r, ageSeq := a.ageSeq + 1, replanTick := s.ticks })
    |>.hub 8 (s.aon.ageSeq % 512) r |>.hub 4 0 []

/-- MARGIN_REPLAN: 24 h after the previous re-plan; an alert defers it until 1 ms after its release. The link codes move with
it (R356). -/
def execMarginReplan (s : State) : Res :=
  .next (
    let a := s.aon
    if !s.fwUp || s.ticks < a.replanTick + 8640000000000 || !a.alertN || a.alertRel.isSome then s
    else
      let slow := fun i => maxSlow ((List.range 8).filterMap (s.isl i).slowdown)
      let t := (List.range 10).foldl (fun s i =>
        let k := s.isl i
        if !k.present then s
        else
          let (bad, s) := s.replanIsl i k.slowdown false
          if !bad then s
          else if k.part = 0xFF then s.failIsl i
          else if (s.partn k.part).lost then s.failIsl i
          else (s.failIsl i).losePart k.part 0xFF) s
      (List.range 172).foldl State.replanLink (t.ageRecord 1 slow))

end Sys2Proof.Machine
end

