-- ==== Sys2Proof/Machine/Manage.lean ====
section
/-!
DEFINITION. The management core: its watchdog and restart, escalation on ATTN_N, attestation, firmware update, and the debug
commands (R198, R416 to R419, R436 to R438, R442, R452, R454, R516 to R523).
-/

namespace Sys2Proof.Machine

/-! ## The management watchdog (R442) -/

/-- KICK: REMAIN := 100,000. -/
def execKick (s : State) : Res := .next (s.modAon (fun a => { a with remain := 100000 }))

/-- MGMT_WATCHDOG_EXPIRY: REMAIN has reached 0, or (`lockstep`) the copies disagree: the core is reset and firmware restarts;
at the second time within 10 s it is held in reset. -/
def execMgmtWatchdogExpiry (lockstep : Bool) (s : State) : Res :=
  .next (
    let a := s.aon
    if !(lockstep || a.remain = 0) || a.fw = 0 || a.fw = 3 then s
    else
      let second : Bool := match a.lastRestart with
        | some t => decide (s.ticks < t + 1000000000)
        | none => false
      (s.modAon (fun a => { a with
        fw := if second then 3 else 2, remain := 100000, restarts := min 15 (a.restarts + 1), lastRestart := some s.ticks,
        attn := a.attn ||| (if second then 0x40#8 else 0x20#8), attn5 := if second then a.attn5 else 16 })).logAon 0x14 [boolNat lockstep])

/-- MGMT_RESTART_DONE: firmware runs again, and every accepted item whose reply is outstanding is answered TIMEOUT. -/
def execMgmtRestartDone (s : State) : Res :=
  .next (
    if s.aon.fw != 2 then s
    else
      let s := s.modAon (fun a => { a with fw := 1, remain := 100000 })
      (List.range 11).foldl (fun s q =>
        (s.queue q).foldl (fun s i => s.answer i { status := stTimeout }) (s.setQueue q [])) s)

/-! ## ATTN_N (R452, R454) -/

/-- The next active code in ascending order after the last one sent. -/
def nextCode (attn : BitVec 8) (last : Nat) : Option Nat :=
  match (List.range 8).find? (fun n => attn.getLsbD n && decide (last < n)) with
  | some n => some n
  | none => (List.range 8).find? (fun n => attn.getLsbD n)

/-- ATTN_FRAME: 1 ms after the last frame the next active code is sent; code 0x5 ceases after 16. Test mode drives none (R506). -/
def execAttnFrame (s : State) : Res :=
  .next (
    let a := s.aon
    if a.testmode || !a.vaon || s.ticks < a.attnSent + 100000 then s
    else match nextCode a.attn a.attnLast with
      | none => s
      | some n =>
        let s := s.modAon (fun a => { a with attnLast := n, attnSent := s.ticks })
        if n != 5 then s
        else if a.attn5 ≤ 1 then s.modAon (fun a => { a with attn5 := 0, attn := a.attn &&& 0xDF#8 })
        else s.modAon (fun a => { a with attn5 := a.attn5 - 1 }))

/-- MGMT_UNREACHABLE: both management ports are out of service. Running firmware takes the state dump of every OPEN partition;
then, or at the latest 20 ms after the second port failed, code 0x1 is signalled. -/
def execMgmtUnreachable (s : State) : Res :=
  .next (
    let a := s.aon
    match a.unreach with
    | none => s
    | some (t, time) =>
      if a.attn.getLsbD 1 || a.fw = 0 || a.fw = 3 then s
      else if s.fwUp then
        let s := ((List.range 10).filter (fun p => (s.partn p).isOpen)).foldl (fun s p => s.addDump (s.partDump p time 4 3)) s
        s.modAon (fun a => { a with attn := a.attn ||| 2#8 })
      else if t + 2000000 ≤ s.ticks then s.modAon (fun a => { a with attn := a.attn ||| 2#8 })
      else s)

/-! ## Attestation (R417 to R419) -/

/-- Does an image pass the check of R417: its key, its signature, its security version? -/
def State.imageOk (s : State) (d : List Byte) : Bool :=
  Config.sha384 (Config.fwField 0 d) == toBytes 48 (s.fuse 8 0)
    && Config.ecdsaVerify (Config.fwField 0 d) (Config.sha384 (Config.fwField 2 d)) (Config.fwField 1 d)
    && decide (s.aon.secver ≤ Config.fwNumber 0 d)

/-- CDI1 from the firmware's measurement and security version. -/
def State.cdi1Of (s : State) (digest : List Byte) (sv : Nat) : List Byte := Config.hmac384 s.aon.cdi0 (digest ++ toBytes 4 sv)

/-- ATTEST: the evidence, signed by the Alias key that CDI1 gives. Its layout is open (notes/assumptions/32.md). -/
def execAttest (s : State) : Res :=
  fwM 0x90 s fun i s =>
    let a := s.aon
    let ev := Config.replyData 0x90 ([i.fld 32 48, s.fuse 5 0, s.fuse 10 0, a.bootph.toNat, a.secver, ofBytes a.fwDigest]
      ++ ((List.range 10).filter s.partExists).flatMap (fun p =>
        let k := s.partn p
        [p, k.pdef.toNat, boolNat k.isOpen, ofBytes (Config.sha384 k.imgkey), ofBytes ((k.image.map (·.digest)).getD []),
         boolNat k.debug]))
    dataR (ev ++ Config.ecdsaSign a.cdi1 (Config.sha384 ev)) s

/-- GET_CERT: the DeviceID certificate (0) or the Alias certificate (1). -/
def execGetCert (s : State) : Res :=
  fwM 0x91 s fun i s =>
    let n := i.fld 32 1
    if 1 < n then failR stBadParam s
    else dataR (Config.replyData 0x91 [n, s.fuse 5 0, ofBytes s.aon.cdi0, if n = 1 then ofBytes s.aon.cdi1 else 0]) s

/-! ## Firmware update (R436 to R438) -/

/-- Writes bytes in a table. -/
def putBytes (t : Tbl Byte) (o : Nat) : List Byte → Tbl Byte
  | [] => t
  | b :: bs => putBytes (lset t o b) (o + 1) bs

/-- FW_STAGE. -/
def execFwStage (s : State) : Res :=
  fwM 0x92 s fun i s =>
    let o := i.fld 32 4
    let d := i.bytes.drop 64
    if i.bytes.length < 64 || !((i.bytes.take 64).drop 36).all (· == 0) || o % 32 != 0 || d.length % 32 != 0
        || 4194304 < o + d.length then failR stBadParam s
    else (s.modAon (fun a => { a with nvStage := putBytes (if o = 0 then [] else a.nvStage) o d })).hub 5 o d |> okR

/-- The staged image: the bytes from 0 up to the last one staged; what lies between staged pieces reads 0. -/
def stagedImage (t : Tbl Byte) : List Byte :=
  (List.range ((t.getLast?.map (fun e => e.1 + 1)).getD 0)).map (lget 0 t)

/-- FW_ACTIVATE: no item starts until the ones in progress have replied; then the staged image is verified, and the new or the
old firmware goes on from the stored state. -/
def execFwActivate (s : State) : Res :=
  fwCmdWait 0x93 10 s fun i s =>
    if !i.going then (none, s.setQueue 10 ((s.queue 10).map (fun x => if x.seq = i.seq then { x with going := true } else x)))
    else if (List.range 10).any (fun q => (s.inProg q).isSome) then (none, s)
    else
      let d := stagedImage s.aon.nvStage
      let old := s.aon.fwver
      if s.imageOk d then
        let m := Config.sha384 (Config.fwField 2 d)
        let v := Config.fwNumber 1 d
        let sv := Config.fwNumber 0 d
        let s := s.modAon (fun a => { a with fwver := v, fwDigest := m, cdi1 := s.cdi1Of m sv, nvFw := some (m, v, sv) })
        (some {}, s.logAon 0x51 [old, v, 1])
      else (some { status := stBadImage }, s.logAon 0x51 [old, old, 0])

/-! ## Debug (R416, R516, R517) -/

/-- DEBUG_CHALLENGE: a nonce, a free value of the crypto block; none for 60 s after three failures. -/
def execDebugChallenge (s : State) : Res :=
  fwM 0x94 s fun i s =>
    if (s.partn i.part).dbgUntil.isSome then failR stDenied s
    else
      let (n, s) := (List.range 6).foldl (fun (e : List Byte × State) _ =>
        let (v, t) := e.2.draw
        (e.1 ++ toBytes 8 v.toNat, t)) ([], s)
      dataR n (s.modPart i.part (fun k => { k with nonce := some (n, s.ticks) }))

/-- Is a signature over a partition's nonce good (R416, R516)? -/
def State.unlockOk (s : State) (p : Nat) (sig : List Byte) : Bool :=
  let k := s.partn p
  match k.nonce with
  | none => false
  | some (n, t) =>
    k.imgkeyen && k.pdef.getLsbD 19 && decide (s.ticks ≤ t + 1000000000)
      && Config.ecdsaVerify k.imgkey (Config.sha384 (n ++ toBytes 16 (s.fuse 5 0) ++ toBytes 1 p)) sig

/-- DEBUG_UNLOCK: the nonce serves one attempt. -/
def execDebugUnlock (s : State) : Res :=
  fwM 0x95 s fun i s =>
    let ok := s.unlockOk i.part ((i.bytes.drop 32).take 96)
    let s := s.logAon 0x43 [i.part, boolNat ok] i.part
    if ok then okR (s.modPart i.part (fun k => { k with nonce := none, debug := true, dbgFails := 0 }))
    else failR stDenied (s.modPart i.part (fun k => { k with
      nonce := none, dbgFails := (k.dbgFails + 1) % 3,
      dbgUntil := if k.dbgFails + 1 = 3 then some (s.ticks + 6000000000) else k.dbgUntil }))

/-- A halted core resumes at the halted boundary. -/
def State.resumeCore (s : State) (c : Nat) : State :=
  if (s.cob c).halted then ((s.modCob c (fun k => { k with halted := false })).endWait c).traceFree c .resume else s

/-- DEBUG_LOCK: every halted core of the partition resumes. -/
def execDebugLock (s : State) : Res :=
  fwM 0x96 s fun i s =>
    let cs := (s.cobs.filter (fun e => s.inPart i.part (blkOf e.1) && e.2.halted)).map (·.1)
    okR ((cs.foldl State.resumeCore s).modPart i.part (fun k => { k with debug := false }))

/-- DEBUG_NONCE_EXPIRY. -/
def execDebugNonceExpiry (part : Nat) (s : State) : Res :=
  if 10 ≤ part then .fault (.noSuchUnit "partition" part)
  else .next (s.modPart part (fun k =>
    match k.nonce with
    | some (_, t) => if t + 1000000000 < s.ticks then { k with nonce := none } else k
    | none => k))

/-- DEBUG_LOCKOUT_END. -/
def execDebugLockoutEnd (part : Nat) (s : State) : Res :=
  if 10 ≤ part then .fault (.noSuchUnit "partition" part)
  else .next (s.modPart part (fun k =>
    match k.dbgUntil with
    | some t => if t ≤ s.ticks then { k with dbgUntil := none } else k
    | none => k))

/-! ## Halting and reading cores (R518 to R520) -/

/-- A debug command of a partition whose debug is locked is DENIED. -/
def fwDebug (op : Nat) (s : State) (f : Item → State → Reply × State) : Res :=
  fwM op s fun i s =>
    if (s.partn i.part).debug then f i s
    else failR stDenied (s.logEvent 4 i.port 0x42 i.part [i.op, i.fld 10 2])

/-- The running cores of an item's scope; none for a scope that does not exist. -/
def State.scope (s : State) (i : Item) : Option (List Nat) :=
  let b := i.fld 34 2
  let c := b * 256 + i.fld 36 1
  let run := fun (t : Nat → Bool) => some ((s.cobs.filter (fun e => t e.1 && e.2.run == .running)).map (·.1))
  match i.fld 32 1 with
  | 0 => run (fun c => s.inPart i.part (blkOf c))
  | 1 => if s.inPart i.part b then run (fun c => blkOf c == b) else none
  | 2 => if s.inPart i.part b && !(s.pzActive b && c != ctlCobble (slotOfBlk b)) then run (· == c) else none
  | _ => none

/-- Does a recovery action run on the scope (R519)? -/
def State.scopeReset (s : State) (i : Item) (cs : List Nat) : Bool :=
  s.aon.acts.any (fun a => a.part == i.part && (a.rank == 2 || cs.any (fun c =>
    (a.rank == 1 && (s.actBlks a).contains (blkOf c)) || (a.kind == .cobble && a.unit == c))))

/-- A core halts at its next boundary; an FE wait is abandoned, once no request of it is in flight (notes/assumptions/9.md). -/
def State.haltCore (s : State) (c : Nat) : State :=
  let k := s.cob c
  if k.halted then s
  else
    let s := if k.feFlying then s else match k.hold with
      | .fe _ => s.unhold c
      | .adm _ _ => s.unhold c
      | _ => s
    (s.modCob c (fun k => { k with halted := true })).traceFree c .halt

def debugScope (op : Nat) (f : State → Nat → State) (s : State) : Res :=
  fwDebug op s fun i s =>
    match s.scope i with
    | none => failR stBadParam s
    | some cs => if s.scopeReset i cs then failR stFenced s else okR (cs.foldl f s)

/-- HALT. -/
def execHalt (s : State) : Res := debugScope 0xF0 State.haltCore s

/-- RESUME. -/
def execResume (s : State) : Res := debugScope 0xF1 State.resumeCore s

/-- Numbers of the CSR map (Table 04-8) that a debugger reads: all but SYNCWATCH, whose watch R198 withholds
(notes/assumptions/91.md). -/
def csrNumbers : List Nat :=
  [0x000, 0x001, 0x010, 0x011, 0x020, 0x021, 0x022, 0x023, 0x024, 0x025, 0x030, 0x031, 0x032, 0x040, 0x041, 0x042, 0x050, 0x060,
   0x061, 0x070, 0x071, 0x072, 0x073] ++ [0x090, 0x091, 0x092, 0x093, 0x094, 0x095, 0x096, 0x098, 0x099, 0x09A, 0x09B]

/-- READ_CORE: the core's registers and CSRs, read without effect; the layout is open (notes/assumptions/32.md). -/
def execReadCore (s : State) : Res :=
  fwDebug 0xF2 s fun i s =>
    let b := i.fld 32 2
    let c := b * 256 + i.fld 34 1
    if !s.inPart i.part b then failR stBadParam s
    else
      let k := s.cob c
      dataR (Config.replyData 0xF2 ((List.range 120).map (fun n => (k.getIdx n).toNat) ++ (List.range 32).map (fun n => (k.fpN n).toNat)
        ++ [k.pc.toNat] ++ csrNumbers.map (fun n => ((s.csrVal c n).map (·.toNat)).getD 0))) s

/-- READ_SYNC: a sync object's VALUE alone. -/
def execReadSync (s : State) : Res :=
  fwDebug 0xF3 s fun i s =>
    let o := i.fld 32 2
    if !s.inPart i.part (o / 16) then failR stBadParam s
    else dataR (toBytes 4 (lget 0 (s.blk (o / 16)).sync (o % 16) &&& 0x7FFFFFFF#32).toNat) s

/-! ## The trace (R521) -/

/-- The trace state that TRACE_CTL returns; the layout is open (notes/assumptions/32.md). -/
def State.traceState (s : State) (p : Nat) : List Byte :=
  let t := s.trace
  if t.part = some p then Config.replyData 0xF4 [1, boolNat t.running, boolNat t.wrap, t.ents.length, t.dropped, boolNat t.trunc]
  else Config.replyData 0xF4 [0]

/-- A trace of a partition starts: a new record, in place of the stopped one (notes/assumptions/44.md). -/
def State.traceStart (s : State) (p : Nat) (wrap : Bool) : State :=
  let s := { s with trace := {} }
  let q := (s.partn p).dseq
  { s with trace := { part := some p, running := true, wrap := wrap, units := min 32 s.freeUnits, seq := q, start := s.pktime,
                      approx := s.approx } }.modPart p (fun k => { k with dseq := q + 1 })

/-- TRACE_CTL. -/
def execTraceCtl (s : State) : Res :=
  fwDebug 0xF4 s fun i s =>
    let p := i.part
    match i.fld 32 1 with
    | 0 =>
      let s := if s.trace.part = some p then s.modTrace (fun t => { t with running := false }) else s
      dataR (s.traceState p) s
    | 3 => dataR (s.traceState p) s
    | n =>
      if 2 < n then failR stBadParam s
      else if s.trace.running && s.trace.part != some p then failR stBusy s
      else if 2 ^ 56 ≤ (s.partn p).dseq then failR stNoResource s
      else let s := s.traceStart p (n == 2); dataR (s.traceState p) s

end Sys2Proof.Machine
end

