-- ==== Sys2Proof/Machine/Boot.lean ====
section
/-!
DEFINITION. Power, reset and the start (R403, R417, R422 to R430, R435, R439, R452, R467, R468, R525, R529, R531; Tables 18-1,
19-10 and 23-5). Stages: 0 none, 1 and 2 of Table 18-1, 3 stage 2a, 4 stage 3, 5 stage 4, 6 stage 5, 7 started.
-/

namespace Sys2Proof.Machine

/-! ## What a reset keeps (Table 19-10) -/

/-- The always-on island after a chip reset or (`power`) after power loss: pins, straps, non-volatile store; at a chip reset also
the log and dump stores and the thermal state. -/
def Aon.after (a : Aon) (power : Bool) (dumps : List DumpRec) : Aon :=
  let b : Aon := {
    pwrgood := a.pwrgood, resetN := a.resetN, alertN := a.alertN, pkgclass := a.pkgclass, testmode := a.testmode, stage := 0,
    vinn := a.vinn, vins := a.vins, vaon := a.vaon, vfuse := a.vfuse, plan := [], nvPlan := a.nvPlan, nvSaved := a.nvSaved,
    nvStage := a.nvStage, nvFailed := a.nvFailed, nvFw := a.nvFw, nvAge := a.nvAge, ageSeq := a.ageSeq, replanTick := a.replanTick }
  if power then b
  else
    { b with
      log := a.log.map (fun r => { r with sent := r.copied }), logseq := a.logseq, loglost := a.loglost, dumps := dumps, trip := a.trip, maxt := a.maxt, tnow := a.tnow,
      hotsrc := a.hotsrc, thermTrip := a.thermTrip, ageLast := a.ageLast, tapIr := a.tapIr, tapDr := a.tapDr, bsr := a.bsr,
      tapOut := a.tapOut, fuseFail := a.fuseFail }

/-- The link records of all bundles, which the non-volatile store holds (R350). -/
def State.saveLinks (s : State) : State :=
  let links := s.ports.filterMap (fun e => e.2.record.map (fun r => (e.1, r)))
  s.modAon (fun a => { a with nvSaved := a.nvSaved.map (fun r => { r with links := links.foldl (fun t e => lset t e.1 e.2) r.links }) })

/-- Chip reset, or power loss: everything else takes its reset value. The stopped trace stays as a record. -/
def State.chipReset (s : State) (power : Bool) : State :=
  let s := s.saveLinks
  let s := if s.trace.running then s.modTrace (fun t => { t with running := false }) else s
  { ({} : State) with
    cethr := if power then 10 else s.cethr, pending := s.pending, freeCtr := s.freeCtr, ticks := s.ticks, pos := s.pos, fuses := s.fuses, itemSeq := s.itemSeq,
    aon := s.aon.after power (s.aon.dumps ++ s.traceRec) }

/-- A start runs from the later of PWRGOOD rising and RESET_N rising. -/
def State.begin (s : State) : State :=
  if s.aon.pwrgood && s.aon.resetN && s.aon.stage = 0 then
    s.modAon (fun a => { a with stage := 1, startTick := s.ticks, stageTick := s.ticks })
  else s

/-! ## Signals and rails (R525, R529, R531) -/

/-- PWRGOOD_RISE: the straps are sampled, and package time starts at 0, not valid and approximate (R49). -/
def execPwrgoodRise (pos : BitVec 6) (cls : BitVec 2) (testmode : Bool) (s : State) : Res :=
  .next (
    if s.aon.pwrgood then s
    else
      { s with pos := pos, pktime := 0, pkPrev := 0, approx := true }.modAon (fun a => { a with
        tbValid := false, edges := false, counting := false, holdTo := none, pwrgood := true, vaon := true, pkgclass := cls, testmode := testmode }) |>.begin)

/-- Power loss. -/
def State.powerLoss (s : State) : State :=
  if s.aon.pwrgood then (s.modAon (fun a => { a with pwrgood := false })).chipReset true else s

/-- PWRGOOD_FALL. -/
def execPwrgoodFall (s : State) : Res := .next s.powerLoss

/-- VAON_LOW. -/
def execVaonLow (s : State) : Res := .next ((s.modAon (fun a => { a with vaon := false })).powerLoss)

/-- RESET_N_ASSERT. -/
def execResetNAssert (s : State) : Res :=
  .next (
    let s := s.modAon (fun a => { a with resetN := false })
    if s.aon.pwrgood then s.chipReset false else s)

/-- RESET_N_RELEASE. -/
def execResetNRelease (s : State) : Res := .next ((s.modAon (fun a => { a with resetN := true })).begin)

/-- VIN_RAIL_CHANGE: VIN_S (`south`) or VIN_N now lies at or above 1.14 V (`ok`) or below it. -/
def execVinRailChange (south ok : Bool) (s : State) : Res :=
  .next (s.modAon (fun a => if south then { a with vins := ok } else { a with vinn := ok }))

/-- RESET_CHIP: first the reply, then, with its next firing, the reset. -/
def execResetChip (s : State) : Res :=
  fwCmdWait 0x57 10 s fun i s =>
    if i.going then (none, (s.chipReset false).begin)
    else (none, (s.answer i {}).setQueue 10 ((s.queue 10).map (fun x =>
      if x.seq = i.seq then { x with going := true, answered := true } else x)))

/-! ## Stages 1 and 2 -/

/-- A stage ends, and the next begins. -/
def State.toStage (s : State) (n : Nat) : State := s.modAon (fun a => { a with stage := n, stageTick := s.ticks })

/-- The start goes no further, and ATTN_N carries a code. -/
def State.stop (s : State) (code : Nat) : State :=
  s.modAon (fun a => { a with stuck := true, attn := a.attn ||| BitVec.ofNat 8 (2 ^ code) })

/-- MANAGEMENT_CORE_STAGE: fuses are sensed; in test mode the boot ROM stops here (R506). -/
def execManagementCoreStage (s : State) : Res :=
  .next (
    if s.aon.stage != 1 || s.aon.stuck then s
    else
      let s := s.modAon (fun a => { a with secver := s.fuse 9 0 })
      if s.aon.testmode then s.modAon (fun a => { a with stuck := true })
      else
        let s := (List.range 10).foldl (fun s i => s.modIsl i (fun k => { k with present := !s.aon.nvFailed.contains i })) s
        s.toStage 2)

/-- TIMEREF_ABSENT: no edge 1 s into stage 2. -/
def execTimerefAbsent (s : State) : Res :=
  .next (
    let a := s.aon
    if a.stage != 2 || a.stuck || a.edges || s.ticks < a.stageTick + 100000000 then s else s.stop 3)

/-- Is the rail of an island's half within its range? -/
def State.railOk (s : State) (i : Nat) : Bool := if i < 5 then s.aon.vinn else s.aon.vins

/-- RAIL_WAIT_EXPIRY: 20 ms into stage 2 the islands of a half whose rail is low are absent. -/
def execRailWaitExpiry (s : State) : Res :=
  .next (
    let a := s.aon
    if a.stage != 2 || a.stuck || s.ticks < a.stageTick + 2000000 then s
    else (List.range 10).foldl (fun s i => s.modIsl i (fun k => { k with present := k.present && s.railOk i })) s)

/-- TIMEBASE_STAGE: edges are counted and every rail is up or given up. `bad`: islands whose regulator failed, control stops and
segments of the service ring that failed its test stop by stop (R28);
`seams`: failed wires by receiving block, group and wire; `routers`: blocks whose router failed. -/
def execTimebaseStage (bad : BitVec 10 × BitVec 10 × BitVec 11) (seams : List (Nat × Nat × Nat)) (routers : List Nat) (s : State) : Res :=
  .next (
    let a := s.aon
    if a.stage != 2 || a.stuck || !a.edges || (List.range 10).any (fun i => (s.isl i).present && !s.railOk i) then s
    else
      let s := s.modAon (fun a => { a with ringStops := bad.2.1, ringSegs := bad.2.2 })
      let s := (List.range 10).foldl (fun s i =>
        let up : Bool := (s.isl i).present && !bad.1.getLsbD i && (s.aon.ringWay i).isSome
        s.modIsl i (fun k => { k with
          present := up, powered := up, mdcode := s.fuse 14 i,
          ventry := (List.range 8).map (fun o => (o, s.testEntry i o)), vceil := (List.range 8).map (fun o => (o, s.ceiling i o)) })) s
      let soft := routers.map (fun b => (b, 17)) ++ (seams.filter (fun e => 140 ≤ e.1 && e.1 < 180)).map (fun e =>
        (320 + (e.1 - 140) * 16 + e.2.1, e.2.2))
      let s := s.modAon (fun a => { a with soft := soft })
      ((s.toStage 3).trainStart 170 true).trainStart 171 true)

/-! ## Stage 2a (R417, R423, R425, R426) -/

/-- MANAGEMENT_PORT_STAGE: the training of both management ports has ended. `image` is the boot code that the hub returned,
`recOk` whether the saved-settings record, if there is one, passes its HMAC and identity check. -/
def execManagementPortStage (image : List (BitVec 8)) (recOk : Bool) (s : State) : Res :=
  .next (
    let a := s.aon
    let st := fun (p : Nat) => (s.port p).st
    if a.stage != 3 || a.stuck || st 170 = 1 || st 171 = 1 then s
    else if s.mgmtPort.isNone then s.stop 2
    else if !s.imageOk image then (s.hub 0 0 []).stop 2
    else
      let s := s.hub 0 0 []
      let m := Config.sha384 (Config.fwField 2 image)
      let rec_ := if recOk then a.nvSaved else none
      let s := s.modAon (fun a => { a with
        bootph := 1, bcver := Config.fwNumber 1 image, bcDigest := m, cdi0 := Config.hmac384 (toBytes 48 (s.fuse 7 0)) m,
        warm := rec_.isSome, rejected := a.nvSaved.isSome && !recOk,
        soft := a.soft ++ ((rec_.map (·.repairs)).getD []).filter (fun e => !a.soft.contains e) })
      let s := ((rec_.map (·.links)).getD []).foldl (fun s e => s.modPort e.1 (fun p => { p with record := some e.2 })) s
      s.toStage 4)

/-! ## Stages 3 and 4 (R425 to R427, R488) -/

/-- The margin set of an island from the saved record, where every entry lies between its test entry and its ceiling. -/
def State.savedMargin (s : State) (i : Nat) : State :=
  match s.aon.nvSaved with
  | none => s
  | some r =>
    let ok := (List.range 8).all (fun o =>
      let v := lget 0 r.ventry (i * 8 + o)
      decide (s.testEntry i o ≤ v) && decide (v ≤ s.ceiling i o))
    if !s.aon.warm || !ok then s
    else s.modIsl i (fun k => { k with
      ventry := (List.range 8).map (fun o => (o, lget 0 r.ventry (i * 8 + o))), mdcode := lget 0 r.mdcode i, cap := lget 7 r.cap i })

/-- A measured slowdown of operating point `o` of island `i`, in millionths. -/
def slowOf (l : List (Nat × Int)) (i o : Nat) : Option Int := (l.find? (fun e => e.1 == i * 8 + o)).map (·.2)

/-- MEMORY_STAGE: `defects` are the column (0 to 16) and block (17) defects that BIST found and no redundant row covers; `slow` the
slowdowns measured at each operating point (island × 8 + point) for 1 ms. -/
def execMemoryStage (defects : List (Nat × Nat)) (slow : List (Nat × Int)) (s : State) : Res :=
  .next (
    if s.aon.stage != 4 || s.aon.stuck then s
    else
      let s := s.modAon (fun a => { a with soft := a.soft ++ defects.filter (fun e => e.1 < 320 && !a.soft.contains e) })
      let s := (List.range 10).foldl (fun s i =>
        if !(s.isl i).present then s
        else
          let (bad, s) := (s.savedMargin i).replanIsl i (slowOf slow i) true
          if bad then (s.failIsl i).modIsl i (fun k => { k with present := false, powered := false }) else s) s
      let s := s.ageRecord 2 (fun i => maxSlow ((List.range 8).filterMap (slowOf slow i)))
      (List.range 170).foldl (fun s p =>
        if (s.isl (if p < 160 then p / 16 else p - 160)).present then
          (s.modPort p (fun q => { q with full := !s.aon.warm })).trainStart p true
        else s) (s.toStage 5))

/-- LINK_STAGE: no port trains any more. -/
def execLinkStage (s : State) : Res :=
  .next (
    if s.aon.stage != 5 || s.aon.stuck || (List.range 170).any (fun p => (s.port p).st == 1) then s
    else ((List.range 170).foldl (fun s p => s.modPort p (fun q => { q with full := false })) s).toStage 6)

/-! ## Stage 5 (R403, R417, R428 to R430, R435) -/

/-- Defective physical columns of a block, 17 for the whole block (R428). -/
def State.badColumns (s : State) (b : Nat) : List Nat :=
  let f := (s.fuses.filter (fun e => e.1 == 65536 + b && e.2 < 16)).map (·.2)
  ((s.aon.soft.filter (fun e => e.1 == b)).map (·.2)).foldl (fun l c => insertNat c l) f

/-- Physical column of a logical column of a block (R20). -/
def Block.physCol (k : Block) (lc : Nat) : Nat := if lc < k.skip.toNat then lc else lc + 1

/-- Physical cobble of a logical cobble: block, physical column and row (R20, R221). -/
def State.physCob (s : State) (c : Nat) : Nat × Nat × Nat := (blkOf c, (s.blk (blkOf c)).physCol (c % 16), c % 256 / 16)

/-- A block's BLKMAP: fenced, and SKIP. `differs`: its read-back differed (R430). -/
def State.mapBlk (s : State) (differs : List Nat) (b : Nat) : State :=
  let bad := s.badColumns b
  if !(s.isl (islOfBlk b)).present || s.fuse 0 b = 1 || bad.contains 17 || 2 ≤ bad.length || differs.contains b then s
  else s.modBlk b (fun k => { k with fence := false, skip := BitVec.ofNat 5 (bad.headD 16) })

/-- Failed wires of a group of a seam direction: from fuses, the soft repair record and the test. -/
def State.seamBad (s : State) (b g : Nat) : List Nat :=
  let n := (b - 140) * 16 + g
  let f := s.fuse 2 n
  ((s.aon.soft.filter (fun e => e.1 == 320 + n)).map (·.2)).foldl (fun l w => insertNat w l) (if 32 ≤ f then [f % 32] else [])

/-- SEAMMAP of a direction; two failed wires in a group fail it (R325, R428). -/
def State.mapSeam (s : State) (b : Nat) : State :=
  (List.range 16).foldl (fun s g =>
    match s.seamBad b g with
    | [] => s
    | [w] => s.modBlk b (fun k => { k with
        seamMap := lset k.seamMap g (BitVec.ofNat 8 (128 + w % 32)), seamRepl := k.seamRepl ||| BitVec.ofNat 16 (2 ^ g) })
    | _ => s.modBlk b (fun k => { k with seamFailed := true })) s

/-- Islands of a partition of a plan, in island order. -/
def PlanPart.isls (p : PlanPart) : List Nat :=
  (List.range 10).filter (fun i => bit p.halves (i / 5) && decide (p.sx0 ≤ i % 5) && decide (i % 5 ≤ p.sx1))

/-- PARTDEF and PARTRECT of a partition of a plan. -/
def PlanPart.word (p : PlanPart) : W32 :=
  b32 (2 ^ 31 + p.halves * 2 ^ 29 + p.sx1 * 2 ^ 24 + p.sx0 * 2 ^ 20 + boolNat p.dbgen * 2 ^ 19 + p.tenant.toNat)
def PlanPart.rect (p : PlanPart) : W32 :=
  b32 (2 ^ 31 + (4 * p.sx1 + 3) * 2 ^ 24 + 4 * p.sx0 * 2 ^ 16 + (if p.halves = 1 then 7 else 15) * 2 ^ 8 + (if p.halves = 2 then 8 else 0))

/-- A partition of the plan comes up: PARTDEF, ISLOWN, PARTRECT, WPOLICY, the bindings' own ports and PZCFGk.MODE. -/
def State.setUp (s : State) (n : Nat) (p : PlanPart) : State :=
  let s := s.modPart n (fun k => { k with pdef := p.word })
  let s := (p.isls.zipIdx).foldl (fun s e => s.modIsl e.1 (fun k => { k with
    own := b32 (2 ^ 31 + n * 2 ^ 24 + p.tenant.toNat), wpolicy := p.wpol.getD e.2 7#32,
    sbind := (List.range 16).map (fun m => (m, b32 ((16 * e.1 + m) * 256))) })) s
  let s := ((List.range nBlocks).filter (fun b => p.isls.contains (islOfBlk b))).foldl (fun s b =>
    s.modBlk b (fun k => { k with partrect := p.rect })) s
  (partSlots p.word).foldl (fun s e => s.modSlot e.2 (fun k => { k with reqPz := bit p.modes e.1 })) s

/-- Does a partition of the stored plan still pass its checks (R402, R403, R439)? -/
def State.planOk (s : State) (p : PlanPart) : Bool := p.ok && !s.planSeam p && p.isls.all (fun i => (s.isl i).present)

/-- Firmware is verified and started: a failing image leaves the previous one. -/
def State.startFw (s : State) (image : List Byte) : State :=
  let a := s.aon
  if s.imageOk image then
    let m := Config.sha384 (Config.fwField 2 image)
    let v := Config.fwNumber 1 image
    let sv := Config.fwNumber 0 image
    let s := s.modAon (fun a => { a with fw := 1, fwver := v, fwDigest := m, cdi1 := s.cdi1Of m sv, nvFw := some (m, v, sv) })
    if Config.fwNumber 2 image = 1 && a.secver < sv then
      { s with fuses := lset s.fuses (9 * 65536) sv }.modAon (fun a => { a with secver := sv })
    else s
  else match a.nvFw with
    | none => s
    | some (m, v, sv) => s.modAon (fun a => { a with fw := 1, fwver := v, fwDigest := m, cdi1 := s.cdi1Of m sv })

/-- Do the fuses hold a defect of the soft repair record: a block fenced at test, its BSKIP column, a replaced seam wire (R429)? -/
def State.fuseHolds (s : State) (e : Nat × Nat) : Bool :=
  if e.1 < 320 then s.fuse 0 e.1 == 1 || s.fuses.any (fun f => f.1 == 65536 + e.1 && f.2 < 16 && f.2 == e.2)
  else s.fuse 2 (e.1 - 320) == 32 + e.2

/-- The saved-settings record at the end of a start: a cold one replaces it; both add the defects found that no fuse holds. -/
def State.saveStart (s : State) : State :=
  let a := s.aon
  let r : SavedRec := match a.nvSaved with
    | some r => if a.warm then r else { r with links := [], time := s.pktime, warm := false }
    | none => { links := [], ventry := [], mdcode := [], cap := [], repairs := [], time := s.pktime, warm := false }
  ((s.modAon (fun a => { a with nvSaved := some { r with repairs := a.soft.filter (fun e => !s.fuseHolds e) } })).saveLinks).saveMargins.hub 4 0 []

/-- COMPUTE_ISLAND_STAGE: maps, plan and policy, the lock, firmware, the release of the islands. `differs`: blocks whose BLKMAP
read back differently; `image`: the firmware that the hub returned. -/
def execComputeIslandStage (differs : List Nat) (image : List (BitVec 8)) (s : State) : Res :=
  .next (
    if s.aon.stage != 6 || s.aon.stuck then s
    else
      let s := (List.range nBlocks).foldl (fun s b => s.mapBlk differs b) s
      let s := (List.range 40).foldl (fun s d => s.mapSeam (140 + d)) s
      let plan := s.aon.nvPlan.zipIdx
      let up := plan.filter (fun e => s.planOk e.1)
      let out := (plan.filter (fun e => !s.planOk e.1)).map (·.2)
      let s := up.foldl (fun s e => s.setUp e.2 e.1) s
      let s := (s.modAon (fun a => { a with plan := a.nvPlan, omitted := out })).hub 1 0 [] |>.startFw image
      let s := s.modAon (fun a => { a with bootph := 2 })
      if s.aon.fw = 0 then s.modAon (fun a => { a with stuck := true })
      else
        let s := (List.range 10).foldl (fun s i => s.modIsl i (fun k => { k with
          powered := k.present && k.own.getLsbD 31, grant := 0, cur := 0, waitSt := (s.ticks, k.waitacc) })) s
        let s := s.modAon (fun a => { a with
          startUs := (s.ticks - a.startTick) / 100, remain := 100000, lastRead := some s.ticks, statTick := s.ticks,
          dumps := a.dumps.filter (fun r => (s.partn r.part).pdef.setWidth 16 == r.tenant) })
        let s := s.logAon 0x50 ([boolNat s.aon.warm, s.aon.startUs, boolNat s.aon.rejected, s.gstat] ++ out)
        s.saveStart.toStage 7)

/-- START_FAILED: management service is not ready 3.0 s after PWRGOOD or RESET_N. -/
def execStartFailed (s : State) : Res :=
  .next (
    let a := s.aon
    if a.stage = 0 || a.stage = 7 || a.testmode || s.ticks < a.startTick + 300000000 then s
    else s.modAon (fun a => { a with attn := a.attn ||| 0x80#8 }))

end Sys2Proof.Machine
end

