-- ==== Sys2Proof/Machine/Approx.lean ====
section
/-!
DEFINITION. The approximation stages EXP2, LOG2, RECIP and RSQRT (R266; Table 10-9): special inputs and exact results as
the table states; any other result is a value the spec leaves open within its error bound, so it is drawn from
Config.approx and kept when it meets the bound, else replaced by the nearest value (notes/assumptions/25.md).
-/

namespace Sys2Proof.Machine.Fp

/-- Fixed point with 120 fraction bits. -/
def fixBits : Nat := 120
def one : Nat := 2 ^ fixBits

/-- 2^f for a fixed-point fraction f: the product of the constants 2^(2^−i), found by repeated square roots. -/
def exp2Frac : Nat → Nat → Nat → Nat → Nat
  | 0, _, _, acc => acc
  | n + 1, f, c, acc =>
    let c' := isqrt (c * one)
    let f2 := 2 * f
    if one ≤ f2 then exp2Frac n (f2 - one) c' (acc * c' / one) else exp2Frac n f2 c' acc

/-- log₂ of a fixed-point x in [1, 2), bit by bit by squaring. -/
def log2Frac : Nat → Nat → Nat → Nat → Nat
  | 0, _, _, acc => acc
  | n + 1, x, w, acc =>
    let y := x * x / one
    if 2 * one ≤ y then log2Frac n (y / 2) (w / 2) (acc + w / 2) else log2Frac n y (w / 2) acc

/-- ⌊m × 2^e × 2^fixBits⌋. -/
def toFix (m : Nat) (e : Int) : Nat :=
  let s := e + fixBits
  if 0 ≤ s then m * 2 ^ s.toNat else m / 2 ^ (-s).toNat

/-- Is a magnitude a power of two? Its exponent. -/
def pow2? (m : Nat) (e : Int) : Option Int := if m != 0 && m = 2 ^ (len m - 1) then some (e + len m - 1) else none

/-- Is ±m × 2^e an integer? -/
def isInt (m : Nat) (e : Int) : Bool := 0 ≤ e || m % 2 ^ (-e).toNat == 0

/-- 2^a of a finite a with |a| < 2^11, to 100 bits and more. -/
def exp2Ref (neg : Bool) (m : Nat) (e : Int) : FVal :=
  let f := toFix m e
  let whole : Int := if neg then -(f / one : Nat) - (if f % one = 0 then 0 else 1) else (f / one : Nat)
  let frac := if neg then (if f % one = 0 then 0 else one - f % one) else f % one
  .fin false (exp2Frac 110 frac (2 * one) one) (whole - fixBits)

/-- log₂ of m × 2^e. -/
def log2Ref (m : Nat) (e : Int) : FVal :=
  let ex : Int := e + len m - 1
  let fr := log2Frac 110 (toFix m (1 - (len m : Int))) one 0
  let v : Int := ex * one + fr
  .fin (decide (v < 0)) v.natAbs (-(fixBits : Int))

/-- |a − b| ≤ bound, for finite values. -/
def within (a b bound : FVal) : Bool :=
  match addV .rne a b.negate with
  | (.fin _ m e, _) => !ltV bound (.fin false m e)
  | _ => false

/-- ±2^k times a magnitude. -/
def FVal.bound (v : FVal) (k : Int) : FVal := v.abs.scale k

/-- The error bound of Table 10-9 around a reference. -/
def approxBound (op : Nat) (dbl : Bool) (a ref : FVal) : FVal :=
  let half := FVal.fin false 1 (-1)
  let two := FVal.fin false 1 1
  if op = 1 then
    if !ltV a half && ltV a two then .fin false 1 (if dbl then -50 else -22)
    else ref.bound (if dbl then -49 else -21)
  else ref.bound (if dbl then -50 else -22)

/-- An inexact result in the wide format: the hardware's value where it lies within the bound, else the nearest. -/
def approxValue (op : Nat) (f : Fmt) (a : FVal) (code : Nat) (ref : FVal) : FVal × Flags :=
  let near := encode f .rne .ieee ref
  let cand := Config.approx op f.width code % 2 ^ f.width
  let v := decode f cand
  let pick := if within v ref (approxBound op (f == fp64) a ref) then cand else near.1
  let r := decode f pick
  match r with
  | .fin _ m _ => (r, NX ||| (if m < 2 ^ f.mbits then UF else 0))
  | x => (x, OF ||| NX)

/-- One approximation in a wide format: 0 EXP2, 1 LOG2, 2 RECIP, 3 RSQRT. -/
def approxWide (op : Nat) (f : Fmt) (code : Nat) : FVal × Flags :=
  let a := decode f code
  match nanOf [a] with
  | some r => r
  | none =>
    match op, a with
    | 0, .inf n => (if n then .fin false 0 0 else .inf false, 0)
    | 0, .fin n m e =>
      if m = 0 then (.fin false 1 0, 0)
      else if ltV (.fin false 1 11) (.fin false m e) then
        (if n then (.fin false 0 0, UF ||| NX) else (.inf false, OF ||| NX))
      else
        let r := exp2Ref n m e
        let near := encode f .rne .ieee r
        if isInt m e && near.2 &&& NX = 0 then (decode f near.1, 0)
        else if near.2 &&& OF != 0 then (.inf false, OF ||| NX)
        else approxValue 0 f a code r
    | 1, .inf n => if n then (.cnan, NV) else (.inf false, 0)
    | 1, .fin n m e =>
      if m = 0 then (.inf true, DZ)
      else if n then (.cnan, NV)
      else match pow2? m e with
        | some k => (.fin (decide (k < 0)) k.natAbs 0, 0)
        | none => approxValue 1 f a code (log2Ref m e)
    | 2, .inf n => (.fin n 0 0, 0)
    | 2, .fin n m e =>
      if m = 0 then (.inf n, DZ)
      else
        let r := divFin n 1 0 m e
        let near := encode f .rne .ieee r
        match pow2? m e with
        | some k => if 1 - (f.bias : Int) ≤ -k && near.2 = 0 then (decode f near.1, 0) else approxValue 2 f a code r
        | none => approxValue 2 f a code r
    | _, .inf n => if n then (.cnan, NV) else (.fin false 0 0, 0)
    | _, .fin n m e =>
      if m = 0 then (.inf n, DZ)
      else if n then (.cnan, NV)
      else match pow2? m e with
        | some k => if k % 2 = 0 then (.fin false 1 (-(k / 2)), 0) else approxValue 3 f a code (rsqrtRef m e)
        | none => approxValue 3 f a code (rsqrtRef m e)
    | _, _ => (.cnan, 0)
where
  /-- 1 / √(m × 2^e). -/
  rsqrtRef (m : Nat) (e : Int) : FVal :=
    match sqrtV (.fin false m e) with
    | (.fin _ m' e', _) => divFin false 1 0 m' e'
    | _ => .cnan

/-- An approximation stage in any floating format, of a source in format `src`: a short format rounds the FP32 approximation once
(R266); EXP2's overflow saturates there under SAT. A subnormal result that is not exact by Table 10-9, RECIP's among them, raises
inexact and underflow. -/
def approx (op : Nat) (src f : Fmt) (ov : Ovf) (code : Nat) : Nat × Flags :=
  if f.wide then
    let r := approxWide op f code
    let e := encode f .rne .ieee r.1
    (e.1, r.2 ||| (e.2 &&& NV))
  else
    let r := approxWide op fp32 (encode fp32 .rne .ieee (decode src code)).1
    let snan : Flags := if (decode src code).isSnan then NV else 0
    if r.1.isInf && r.2 &&& OF != 0 then (overflowCode f .rne ov false, OF ||| NX)
    else
      let e := encode f .rne ov r.1
      let sub : Bool := match decode f e.1 with
        | .fin _ m _ => m != 0 && m < 2 ^ f.mbits
        | _ => false
      (e.1, r.2 ||| e.2 ||| snan ||| (if sub && (op = 2 || r.2 &&& NX != 0) then NX ||| UF else 0))

end Sys2Proof.Machine.Fp
end

