-- ==== Sys2Proof/Machine/Svx.lean ====
section
/-!
DEFINITION. SVX and the small tiles (R110 to R136; Tables 05-1 to 05-4).
-/

namespace Sys2Proof.Machine

/-! ## Encoding (Table 05-1) -/

def wVR (op : Nat) (vd vs1 vs2 vs3 ty : BitVec 3) (fn : BitVec 11) : W32 :=
  BitVec.ofNat 6 op ++ vd ++ vs1 ++ vs2 ++ vs3 ++ ty ++ fn
def wVM (fn : Nat) (v : BitVec 3) (rs1 : BitVec 6) (imm : BitVec 14) : W32 :=
  BitVec.ofNat 6 0x1C ++ v ++ BitVec.ofNat 3 fn ++ rs1 ++ imm
def wVX (sel : Nat) (vd vs1 : BitVec 3) (reg : BitVec 6) (ty : BitVec 3) (idx : BitVec 6) (fn : BitVec 3) : W32 :=
  BitVec.ofNat 6 0x21 ++ vd ++ vs1 ++ reg ++ ty ++ idx ++ fn ++ BitVec.ofNat 2 sel
def wT (op : Nat) (va vb r1 r2 tyA tyB : BitVec 3) (fn : BitVec 8) : W32 :=
  BitVec.ofNat 6 op ++ va ++ vb ++ r1 ++ r2 ++ tyA ++ tyB ++ fn

/-- The f registers under v registers (R110). -/
def vregs (vs : List (BitVec 3)) : List (BitVec 6) :=
  vs.flatMap (fun v => (List.range 4).map (fun j => BitVec.ofNat 6 (4 * v.toNat + j)))

def Cobble.v (k : Cobble) (n : BitVec 3) : Nat := k.vec n.toNat

/-- An SVX or tile instruction: illegal in a piazza (R136) or when its own check fails; the lane unit wakes first where
the instruction needs it (R130); then its effect. -/
def svx (c : Nat) (w : W32) (lane : Bool) (ints : List (BitVec 6)) (vs : List (BitVec 3)) (ok : Cobble → Bool)
    (body : Cobble → State → State) (s : State) : Res :=
  issue c w ints (vregs vs)
    (fun k s =>
      if k.pz || !ok k then s.illegal c w
      else if lane && k.asleep then s.setCob c { k with waking := true }
      else body k s) s

/-! ## Element arithmetic (R117, R118) -/

/-- The other 8-bit format. -/
def other8 (f : Fp.Fmt) : Fp.Fmt := if f = Fp.v8 then Fp.g8 else Fp.v8

def is8 (f : Fp.Fmt) : Bool := f == Fp.v8 || f == Fp.g8

/-- A member of group 0x1D: `fn` holds fn[10:4]. -/
def vArith (op c : Nat) (vd vs1 vs2 vs3 ty : BitVec 3) (fn : BitVec 7) (s : State) : Res :=
  let f := (Fp.ofCode ty).getD Fp.fp64
  let alt := fun i => if fn.getLsbD i then other8 f else f
  svx c (wVR 0x1D vd vs1 vs2 vs3 ty (fn ++ BitVec.ofNat 4 op)) true []
    (if 3 ≤ op && op < 6 then [vd, vs1, vs2, vs3] else [vd, vs1, vs2])
    (fun _ => (Fp.ofCode ty).isSome && fn.toNat < 8 && (is8 f || fn == 0))
    (fun k s =>
      let e := Fp.elem
      let r := Fp.build f.width (fun i => Fp.elemOp op f (alt 0) (alt 1) (alt 2) k.dir k.ovf
        (e (k.v vs1) f.width i) (e (k.v vs2) f.width i) (e (k.v vs3) f.width i)) (256 / f.width)
      s.retire c ((k.setVec vd.toNat r.1).raise r.2)) s

def execVadd (c : Nat) (vd vs1 vs2 vs3 ty : BitVec 3) (fn : BitVec 7) (s : State) : Res :=
  vArith 0 c vd vs1 vs2 vs3 ty fn s
def execVsub (c : Nat) (vd vs1 vs2 vs3 ty : BitVec 3) (fn : BitVec 7) (s : State) : Res :=
  vArith 1 c vd vs1 vs2 vs3 ty fn s
def execVmul (c : Nat) (vd vs1 vs2 vs3 ty : BitVec 3) (fn : BitVec 7) (s : State) : Res :=
  vArith 2 c vd vs1 vs2 vs3 ty fn s
def execVfma (c : Nat) (vd vs1 vs2 vs3 ty : BitVec 3) (fn : BitVec 7) (s : State) : Res :=
  vArith 3 c vd vs1 vs2 vs3 ty fn s
def execVfms (c : Nat) (vd vs1 vs2 vs3 ty : BitVec 3) (fn : BitVec 7) (s : State) : Res :=
  vArith 4 c vd vs1 vs2 vs3 ty fn s
def execVfnma (c : Nat) (vd vs1 vs2 vs3 ty : BitVec 3) (fn : BitVec 7) (s : State) : Res :=
  vArith 5 c vd vs1 vs2 vs3 ty fn s
def execVmin (c : Nat) (vd vs1 vs2 vs3 ty : BitVec 3) (fn : BitVec 7) (s : State) : Res :=
  vArith 6 c vd vs1 vs2 vs3 ty fn s
def execVmax (c : Nat) (vd vs1 vs2 vs3 ty : BitVec 3) (fn : BitVec 7) (s : State) : Res :=
  vArith 7 c vd vs1 vs2 vs3 ty fn s
def execVcmpeq (c : Nat) (vd vs1 vs2 vs3 ty : BitVec 3) (fn : BitVec 7) (s : State) : Res :=
  vArith 8 c vd vs1 vs2 vs3 ty fn s
def execVcmplt (c : Nat) (vd vs1 vs2 vs3 ty : BitVec 3) (fn : BitVec 7) (s : State) : Res :=
  vArith 9 c vd vs1 vs2 vs3 ty fn s
def execVcmple (c : Nat) (vd vs1 vs2 vs3 ty : BitVec 3) (fn : BitVec 7) (s : State) : Res :=
  vArith 10 c vd vs1 vs2 vs3 ty fn s

/-- Bitwise select on 256 bits: `b` where `m` is 1, else `a`. -/
def bitSel (m b a : Nat) : Nat := (m &&& b) ||| ((2 ^ 256 - 1 - m % 2 ^ 256) &&& a)

/-- VSEL ignores ty, its reserved code too, and raises no flag (notes/assumptions/45.md). -/
def execVsel (c : Nat) (vd vs1 vs2 vs3 ty : BitVec 3) (fn : BitVec 7) (s : State) : Res :=
  svx c (wVR 0x1D vd vs1 vs2 vs3 ty (fn ++ 0xB#4)) true [] [vd, vs1, vs2, vs3]
    (fun _ => fn.toNat < 8 && (ty == 4 || ty == 5 || fn == 0))
    (fun k s => s.retire c (k.setVec vd.toNat (bitSel (k.v vs1) (k.v vs2) (k.v vs3)))) s

/-! ## Conversion (R123 to R125) -/

/-- Is a format V8, G8 or Q4? -/
def isTiny (f : Fp.Fmt) : Bool := !f.ieee

/-- The exponent of the SCALE option: narrowing into a tiny format 127 − c, widening from one c − 127; none elsewhere. -/
def scaleExp (src dst : Fp.Fmt) (c : Nat) : Option Int :=
  if isTiny dst && dst.width < src.width then some (127 - (c : Int))
  else if isTiny src && src.width < dst.width then some ((c : Int) - 127)
  else none

/-- One converted element, with the scale byte where there is one; 0xFF makes it NaN (R124), with the flags of a special source
alone (R66). DESIGN CHOICE (notes/assumptions/94.md): a finite source under 0xFF raises none. -/
def convElem (src dst : Fp.Fmt) (rm : Fp.RM) (ov : Fp.Ovf) (sc : Option (Nat × Int)) (x : Nat) : Nat × Fp.Flags :=
  match sc with
  | some (0xFF, _) => (dst.cnanCode, Fp.specialFlags dst (Fp.decode src x))
  | some (_, e) => Fp.put dst rm ov ((Fp.decode src x).scale e, 0)
  | none => Fp.put dst rm ov (Fp.decode src x, 0)

/-- VCVT: part p in fn[2:0], SCALE fn[3], AMAX fn[4]. -/
def execVcvt (c : Nat) (vd vs1 vs2 tyS ty : BitVec 3) (fn : BitVec 11) (s : State) : Res :=
  let src := (Fp.ofCode tyS).getD Fp.fp64
  let dst := (Fp.ofCode ty).getD Fp.fp64
  let p := fn.toNat % 8
  let narrow : Bool := dst.width < src.width
  let r := if narrow then src.width / dst.width else dst.width / src.width
  svx c (wVR 0x1E vd vs1 vs2 tyS ty fn) true [] [vd, vs1]
    (fun _ => (Fp.ofCode tyS).isSome && (Fp.ofCode ty).isSome && tyS != ty && fn.toNat < 32 && p < r
      && (!fn.getLsbD 3 || (scaleExp src dst 0).isSome) && (!fn.getLsbD 4 || !dst.wide))
    (fun k s =>
      let sc := if fn.getLsbD 3 then (scaleExp src dst k.svscale.toNat).map (fun e => (k.svscale.toNat, e)) else none
      let n := if narrow then 256 / src.width else 256 / dst.width
      let i0 := if narrow then 0 else p * n
      let src1 := k.v vs1
      let res := Fp.build dst.width (fun i => convElem src dst k.dir k.ovf sc (Fp.elem src1 src.width (i0 + i))) n
      let k1 := k.setVec vd.toNat
        (if narrow then Fp.splice (k.v vd) (p * (256 / r)) (256 / r) res.1 else res.1)
      let am := Fp.amaxAll k.amaxNan k.amax.toNat
        ((List.range n).map (fun i => Fp.decode src (Fp.elem src1 src.width (i0 + i))))
      let k2 := if fn.getLsbD 4 then { k1 with amaxNan := am.1, amax := BitVec.ofNat 31 am.2 } else k1
      s.retire c (k2.raise res.2)) s

/-! ## Complex arithmetic (R126, R127) -/

/-- One component ±: a·b ± c·d + z, rounded once; `neg` subtracts the second product. Infinite products of opposite sign are
invalid even where z is a quiet NaN (R127). DESIGN CHOICE (notes/assumptions/95.md): an exact zero of three terms has the sign of
the terms added pairwise from the left. -/
def cplx (f : Fp.Fmt) (rm : Fp.RM) (neg : Bool) (order : List Fp.FVal) (a b c d : Fp.FVal) (z : Option Fp.FVal) :
    Nat × Fp.Flags :=
  let ins := order ++ z.toList
  let zi := fun (x y : Fp.FVal) => (x.isZero && y.isInf) || (x.isInf && y.isZero)
  let opp : Bool := (a.isInf || b.isInf) && (c.isInf || d.isInf) && !order.any (·.isNan) && ((a.neg != b.neg) != ((c.neg != d.neg) != neg))
  let inv : Fp.Flags := if zi a b || zi c d || opp || ins.any (·.isSnan) then Fp.NV else 0
  match Fp.nanOf ins with
  | some (v, _) => ((Fp.encode f rm .ieee v).1, inv)
  | none =>
    if inv != 0 then (f.cnanCode, inv)
    else
      let q := (Fp.mulV c d).1
      let t := Fp.addV rm (Fp.mulV a b).1 (if neg then q.negate else q)
      let u := match z with
        | none => t
        | some z => if t.1.isNan then t else Fp.addV rm t.1 z
      let r := Fp.encode f rm .ieee u.1
      (r.1, r.2 ||| u.2)

/-- VCMUL and VCFMA. -/
def vComplex (add : Bool) (c : Nat) (vd vs1 vs2 vs3 ty : BitVec 3) (conj : Bool) (hi : BitVec 9) (s : State) : Res :=
  let f := (Fp.ofCode ty).getD Fp.fp64
  svx c (wVR 0x1F vd vs1 vs2 vs3 ty (hi ++ BitVec.ofBool add ++ BitVec.ofBool conj)) true []
    (if add then [vd, vs1, vs2, vs3] else [vd, vs1, vs2])
    (fun _ => (ty == 0 || ty == 1) && hi == 0)
    (fun k s =>
      let g := fun v i => Fp.decode f (Fp.elem (k.v v) f.width i)
      let r := Fp.build f.width (fun i =>
        let j := i / 2 * 2
        let xr := g vs1 j
        let xi := g vs1 (j + 1)
        let yr := g vs2 j
        let yi0 := g vs2 (j + 1)
        let yi := if conj then yi0.negate else yi0
        let z := if add then some (g vs3 i) else none
        if i % 2 = 0 then cplx f k.dir true [xr, xi, yr, yi] xr yr xi yi z
        else cplx f k.dir false [xr, xi, yr, yi] xr yi xi yr z) (256 / f.width)
      s.retire c ((k.setVec vd.toNat r.1).raise r.2)) s

def execVcmul (c : Nat) (vd vs1 vs2 vs3 ty : BitVec 3) (conj : Bool) (hi : BitVec 9) (s : State) : Res :=
  vComplex false c vd vs1 vs2 vs3 ty conj hi s
def execVcfma (c : Nat) (vd vs1 vs2 vs3 ty : BitVec 3) (conj : Bool) (hi : BitVec 9) (s : State) : Res :=
  vComplex true c vd vs1 vs2 vs3 ty conj hi s

/-- VSPLIT3 (R128): h and m pieces to the halves of vd, l pieces to the low half of vd + 1. -/
def execVsplit3 (c : Nat) (vd vs1 vs2 vs3 ty : BitVec 3) (fn : BitVec 11) (s : State) : Res :=
  let src := (Fp.ofCode ty).getD Fp.fp64
  let dst := if ty = 0 then Fp.fp32 else Fp.w16
  svx c (wVR 0x20 vd vs1 vs2 vs3 ty fn) true [] [vd, vd + 1, vs1]
    (fun _ => (ty == 0 || ty == 1) && vd.toNat % 2 == 0 && fn == 0)
    (fun k s =>
      let n := 256 / src.width
      let get := fun i => Fp.split3 src dst (Fp.elem (k.v vs1) src.width i)
      let h := Fp.build dst.width (fun i => ((get i).1.1, (get i).2)) n
      let m := Fp.build dst.width (fun i => ((get i).1.2.1, 0)) n
      let l := Fp.build dst.width (fun i => ((get i).1.2.2, 0)) n
      s.retire c (((k.setVec vd.toNat (h.1 + m.1 * 2 ^ 128)).setVec (vd.toNat + 1) l.1).raise h.2)) s

/-! ## Element moves (R122) -/

/-- VBCAST: fn[4] selects an integer source; its vs1 field is reserved. DESIGN CHOICE (notes/assumptions/96.md): its idx field is
not read. -/
def execVbcast (c : Nat) (vd vs1 : BitVec 3) (reg : BitVec 6) (ty : BitVec 3) (idx : BitVec 6) (fn : BitVec 3)
    (s : State) : Res :=
  let f := (Fp.ofCode ty).getD Fp.fp64
  let intSrc := fn.getLsbD 2
  let w := wVX 0 vd vs1 reg ty idx fn
  issue c w (if intSrc then [reg] else []) (vregs [vd] ++ if intSrc then [] else [reg])
    (fun k s =>
      if k.pz || (Fp.ofCode ty).isNone || vs1 != 0 || 2 ≤ fn.toNat % 4 || fn.toNat % 4 == 1 then s.illegal c w
      else
        let x := (if intSrc then k.int reg else k.fp reg).toNat
        s.retire c (k.setVec vd.toNat (Fp.build f.width (fun _ => (x, 0)) (256 / f.width)).1)) s

/-- VEXT: element idx of vs1 to f register reg. -/
def execVext (c : Nat) (vd vs1 : BitVec 3) (reg : BitVec 6) (ty : BitVec 3) (idx : BitVec 6) (fn : BitVec 3)
    (s : State) : Res :=
  let f := (Fp.ofCode ty).getD Fp.fp64
  let w := wVX 1 vd vs1 reg ty idx fn
  issue c w [] (reg :: vregs [vs1])
    (fun k s =>
      if k.pz || (Fp.ofCode ty).isNone || vd != 0 || fn != 0 || 256 / f.width ≤ idx.toNat then s.illegal c w
      else
        let x := Fp.elem (k.v vs1) f.width idx.toNat
        s.retire c (k.setFp reg (if ty = 1 then box32 x else BitVec.ofNat 64 x))) s

/-- VINS: element idx of vd takes the low bits of f register reg. -/
def execVins (c : Nat) (vd vs1 : BitVec 3) (reg : BitVec 6) (ty : BitVec 3) (idx : BitVec 6) (fn : BitVec 3)
    (s : State) : Res :=
  let f := (Fp.ofCode ty).getD Fp.fp64
  let w := wVX 2 vd vs1 reg ty idx fn
  issue c w [] (reg :: vregs [vd])
    (fun k s =>
      if k.pz || (Fp.ofCode ty).isNone || vs1 != 0 || fn != 0 || 256 / f.width ≤ idx.toNat then s.illegal c w
      else
        s.retire c (k.setVec vd.toNat (Fp.splice (k.v vd) (f.width * idx.toNat) f.width (k.fp reg).toNat))) s

/-! ## Vector loads and stores (R119 to R121) -/

/-- The checks of a VLD or VST address: faults before alignment (R94); none where it may go on. -/
def State.vecTrap (s : State) (c : Nat) (ea : W64) (wr : Bool) : Option State :=
  let k := s.cob c
  if 2 ^ 14 ≤ ea.toNat || (wr && ea.toNat < k.codelim) then some (s.trap c 5 ea)
  else if ea.toNat % 32 != 0 then some (s.trap c 4 ea)
  else none

/-- VLD: after draining the buffer through the youngest overlapping entry. -/
def execVld (c : Nat) (v : BitVec 3) (rs1 : BitVec 6) (imm : BitVec 14) (s : State) : Res :=
  svx c (wVM 0 v rs1 imm) false [rs1] [v] (fun _ => true)
    (fun k s =>
      let ea := k.int rs1 + 32 * imm.signExtend 64
      match s.vecTrap c ea false with
      | some t => t
      | none =>
        let s := match youngest k.stbuf ea.toNat 32 with
          | none => s
          | some i => s.stDrain c (i + 1)
        let (d, p, s) := s.readMem (scrAddr c ea.toNat) 32
        if p then s.trap c 6 ea else s.retire c ((s.cob c).setVec v.toNat (ofBytes d))) s

/-- VST: waits for an empty store buffer, then writes directly. -/
def execVst (c : Nat) (v : BitVec 3) (rs1 : BitVec 6) (imm : BitVec 14) (s : State) : Res :=
  svx c (wVM 1 v rs1 imm) false [rs1] [v] (fun _ => true)
    (fun k s =>
      let ea := k.int rs1 + 32 * imm.signExtend 64
      match s.vecTrap c ea true with
      | some t => t
      | none =>
        if !k.stbuf.isEmpty then s
        else (s.retire c k).writeMem (scrAddr c ea.toNat) (maskN 32) (toBytes 32 (k.v v))) s

/-! ## Small tiles (R132 to R134) -/

/-- Position p of the MAC block: 32 bits; an FP64 accumulator takes an even position and the next (R227). -/
def Cobble.pos (k : Cobble) (p : Nat) : Nat := (lget 0 k.acc p).toNat % 2 ^ 32
def Cobble.setPos (k : Cobble) (p v : Nat) : Cobble := { k with acc := lset k.acc p (BitVec.ofNat 64 (v % 2 ^ 32)) }

/-- The first `n` positions from a 512-bit image. -/
def Cobble.setTile (k : Cobble) (img : Nat) : Nat → Cobble
  | 0 => k
  | n + 1 => (k.setTile img n).setPos n (Fp.elem img 32 n)

def Cobble.tile (k : Cobble) : Nat := (Fp.build 32 (fun p => (k.pos p, 0)) 16).1

/-- TLD: fn[1] FP64 mode, fn[0] ZERO. A reserved type code in either type field is illegal (R114). DESIGN CHOICE
(notes/assumptions/97.md): with ZERO, vs is still checked to be even and waited for. -/
def execTld (c : Nat) (va vb r1 r2 tyA tyB : BitVec 3) (fn : BitVec 8) (s : State) : Res :=
  svx c (wT 0x28 va vb r1 r2 tyA tyB fn) false [] [va, va + 1]
    (fun _ => va.toNat % 2 == 0 && vb == 0 && r1 == 0 && r2 == 0 && fn.toNat < 4 && tyA != 7 && tyB != 7)
    (fun k s =>
      let img := if fn.getLsbD 0 then 0 else k.v va + 2 ^ 256 * k.v (va + 1)
      s.retire c { k.setTile img 16 with acc64 := fn.getLsbD 1 }) s

def execTst (c : Nat) (va vb r1 r2 tyA tyB : BitVec 3) (fn : BitVec 8) (s : State) : Res :=
  svx c (wT 0x2A va vb r1 r2 tyA tyB fn) false [] [va, va + 1]
    (fun _ => va.toNat % 2 == 0 && vb == 0 && r1 == 0 && r2 == 0 && fn == 0 && tyA != 7 && tyB != 7)
    (fun k s =>
      s.retire c ((k.setVec va.toNat (k.tile % 2 ^ 256)).setVec (va.toNat + 1) (k.tile / 2 ^ 256))) s

/-- One accumulator of TMAC: FP32 mode, position (i, j). -/
def tmac32 (fa fb : Fp.Fmt) (a b : Nat) (k : Cobble) (i j : Nat) : Nat × Fp.Flags :=
  let kt := 64 / fa.width
  Fp.accSeq Fp.fp32 false (k.pos (4 * i + j)) ((List.range kt).map (fun q =>
    Fp.product Fp.fp32 (fa == Fp.fp32) (Fp.decode fa (Fp.elem a fa.width (4 * q + i)))
      (Fp.decode fb (Fp.elem b fb.width (4 * q + j))) 0))

/-- One accumulator of TMAC: FP64 mode, accumulator (i, c). -/
def tmac64 (a b : Nat) (k : Cobble) (i c : Nat) : Nat × Fp.Flags :=
  let p := 4 * i + 2 * c
  Fp.accSeq Fp.fp64 false (k.pos p + 2 ^ 32 * k.pos (p + 1)) ((List.range 2).map (fun q =>
    Fp.product Fp.fp64 true (Fp.decode Fp.fp32 (Fp.elem a 32 (4 * q + i)))
      (Fp.decode Fp.fp32 (Fp.elem b 32 (2 * q + c))) 0))

/-- TMAC: the accumulation order of R72, rounding to nearest even whatever FPCR holds. -/
def execTmac (c : Nat) (va vb r1 r2 tyA tyB : BitVec 3) (fn : BitVec 8) (s : State) : Res :=
  let fa := (Fp.ofCode tyA).getD Fp.fp32
  let fb := (Fp.ofCode tyB).getD Fp.fp32
  svx c (wT 0x29 va vb r1 r2 tyA tyB fn) false [] [va, vb]
    (fun k => r1 == 0 && r2 == 0 && fn == 0 && (Fp.ofCode tyA).isSome && (Fp.ofCode tyB).isSome
      && (tyA == tyB || (is8 fa && is8 fb)) && (if k.acc64 then tyA == 1 else tyA != 0))
    (fun k s =>
      let img := if k.acc64 then Fp.build 64 (fun e => tmac64 (k.v va) (k.v vb) k (e / 2) (e % 2)) 8
        else Fp.build 32 (fun e => tmac32 fa fb (k.v va) (k.v vb) k (e / 4) (e % 4)) 16
      s.retire c ((k.setTile img.1 16).raise img.2)) s

/-! ## Lane-unit power (R129 to R131) -/

/-- LANE_UNIT_POWER_DOWN: the idle count has reached 256 steps (the sender keeps the count, notes/assumptions/10.md). -/
def execLaneUnitPowerDown (c : Nat) (s : State) : Res :=
  onCob c s fun s =>
    let k := s.cob c
    if k.awakeReq || k.asleep || k.pz then s else s.setCob c { k with asleep := true }

/-- LANE_UNIT_WAKE_DONE: a wake ends. -/
def execLaneUnitWakeDone (c : Nat) (s : State) : Res :=
  onCob c s fun s =>
    let k := s.cob c
    if k.waking && !k.pz then s.setCob c { k with asleep := false, waking := false } else s

end Sys2Proof.Machine
end

