-- ==== Sys2Proof/Machine/Matrix.lean ====
section
/-!
DEFINITION. The piazza matrix engine: settings, matrix operations and the accumulator instructions (R227 to R245; Tables
09-1 to 09-9). An operation takes its whole effect at issue, wave by wave; its flags arrive at the end of its count.
-/

namespace Sys2Proof.Machine

/-! ## Settings (R231; Tables 09-2, 09-3, 09-5) -/

def wSet (fn : Nat) (rd rs1 rs2 : BitVec 6) : W32 := wPz 0x2C (rd ++ rs1 ++ rs2 ++ BitVec.ofNat 8 fn)

/-- A setting instruction: its rd field is reserved; `one`: its rs2 field must be 0. -/
def setting (fn c : Nat) (rd rs1 rs2 : BitVec 6) (one : Bool) (body : Nat → Cobble → State → State) (s : State) : Res :=
  pzOp c (wSet fn rd rs1 rs2) false (if one then [rs1] else [rs1, rs2]) [] {}
    (fun _ _ => rd == 0 && (!one || rs2 == 0))
    (fun sl k _ s => body sl k s) s

/-- A setting takes effect and is in flight for its count. -/
def State.setPz (s : State) (c sl : Nat) (f : Slot → Slot) : State := (s.modSlot sl f).inFlight c 0 0

/-- A mask with 64-bit word `w` replaced. -/
def maskWord (m : BitVec 256) (w : Nat) (v : W64) : BitVec 256 := BitVec.ofNat 256 (Fp.splice m.toNat (64 * w) 64 v.toNat)

/-- A mask of ones from `lo` to `hi` − 1. -/
def maskRange (lo hi : Nat) : BitVec 256 := BitVec.ofNat 256 (2 ^ hi - 2 ^ lo)

def execMmroww (c : Nat) (rd rs1 rs2 : BitVec 6) (w : BitVec 2) (s : State) : Res :=
  setting (0x20 + w.toNat) c rd rs1 rs2 true
    (fun sl k s => s.setPz c sl (fun p => { p with mrow := maskWord p.mrow w.toNat (k.int rs1) })) s
def execMmcolw (c : Nat) (rd rs1 rs2 : BitVec 6) (w : BitVec 2) (s : State) : Res :=
  setting (0x24 + w.toNat) c rd rs1 rs2 true
    (fun sl k s => s.setPz c sl (fun p => { p with mcol := maskWord p.mcol w.toNat (k.int rs1) })) s

/-- The range check of MMROWR and MMCOLR (Table 09-5). -/
def badRange (a b : W64) : Bool := b.toNat < a.toNat || 256 < b.toNat

def execMmrowr (c : Nat) (rd rs1 rs2 : BitVec 6) (s : State) : Res :=
  setting 0x28 c rd rs1 rs2 false
    (fun sl k s =>
      if badRange (k.int rs1) (k.int rs2) then s.illegal c (wSet 0x28 rd rs1 rs2)
      else s.setPz c sl (fun p => { p with mrow := maskRange (k.int rs1).toNat (k.int rs2).toNat })) s
def execMmcolr (c : Nat) (rd rs1 rs2 : BitVec 6) (s : State) : Res :=
  setting 0x29 c rd rs1 rs2 false
    (fun sl k s =>
      if badRange (k.int rs1) (k.int rs2) then s.illegal c (wSet 0x29 rd rs1 rs2)
      else s.setPz c sl (fun p => { p with mcol := maskRange (k.int rs1).toNat (k.int rs2).toNat })) s
def execMscb (c : Nat) (rd rs1 rs2 : BitVec 6) (s : State) : Res :=
  setting 0x2A c rd rs1 rs2 true
    (fun sl k s =>
      if (k.int rs1).toNat % 8 != 0 then s.trap c 4 (k.int rs1)
      else s.setPz c sl (fun p => { p with mscb := k.int rs1 })) s

/-! ## Matrix operations -/

/-- What a matrix operation captures at issue (R234): formats, K, panel bases, accumulator mode, ZERO, scaling. -/
structure MatOp where
  fa : Fp.Fmt
  fb : Fp.Fmt
  k : Nat
  a : Nat
  b : Nat
  acc64 : Bool
  zero : Bool
  sca : Bool := false
  scb : Bool := false
deriving DecidableEq, Repr

/-- K-positions per streaming step (Table 09-4). -/
def MatOp.d (m : MatOp) : Nat := 32 / m.fa.width
def MatOp.scaled (m : MatOp) : Bool := m.sca || m.scb
def MatOp.spanA (m : MatOp) : Nat := 1024 * m.k / m.d
def MatOp.spanB (m : MatOp) : Nat := if m.acc64 then 1024 * m.k - 4096 else m.spanA

/-- Feed waves (R240). -/
def MatOp.waves (m : MatOp) : Nat := m.k / m.d / 4

/-- The own accesses of feed wave j: A chunks of west kerbs, then B chunks of north kerbs, as (panel, kerb, access);
requester indices as R220 and R237 give them. -/
def MatOp.feeds (m : MatOp) (sl j : Nat) : List (Bool × Nat × WAcc) :=
  (List.range 64).map (fun r => (false, r, { key := 2 * (64 * r), adr := pAddr sl (m.a + 4096 * j + 64 * r), len := 64 }))
  ++ (if m.acc64 && j % 2 = 1 then [] else (List.range 64).map (fun c =>
      (true, c, { key := 2 * c + 1,
                  adr := pAddr sl (m.b + (if m.acc64 then 8192 * (j / 2) else 4096 * j) + 64 * c), len := 64 })))

/-- Cobble lane of a kerb: west kerb r at (0, r), north kerb c at (c, 0). -/
def kerbLane (north : Bool) (i : Nat) : Nat := if north then i else 64 * i

/-- The scale fetches of wave j, for the kerbs of both edges (R238, Table 09-8). -/
def MatOp.scales (m : MatOp) (s : State) (sl mscb j : Nat) : List (Bool × Nat × WAcc) :=
  let every := m.fa.width = 4
  if !m.scaled || (!every && j % 2 = 1) then []
  else
    let g := if every then j else j / 2
    let one := fun (n : Bool) (i : Nat) =>
      (n, i, ({ key := kerbLane n i, adr := s.lAddr sl (kerbLane n i) (mscb + 8 * g), len := 8 } : WAcc))
    (List.range 64).map (one false) ++ ((List.range 63).map (· + 1)).map (one true)

/-- What the feeders hold: chunks of A and B by group and kerb, scale words by group and kerb; NaN where none. -/
structure Feed where
  a : Tbl (Option Nat) := []
  b : Tbl (Option Nat) := []
  sa : Tbl Nat := []
  sb : Tbl Nat := []
  psn : Bool := false
  bankc : Bool := false
deriving DecidableEq, Repr

/-- Insertion of an access by its key. -/
def insKey (x : Bool × Nat × WAcc) : List (Bool × Nat × WAcc) → List (Bool × Nat × WAcc)
  | [] => [x]
  | y :: ys => if x.2.2.key ≤ y.2.2.key then x :: y :: ys else y :: insKey x ys

/-- One feed wave: chunks and scales of group j reach the feeders. Scale fetches are of lane memory, so they meet no feed. -/
def MatOp.feedWave (m : MatOp) (sl pc mscb : Nat) (r : Feed × State) (j : Nat) : Feed × State :=
  let fs := (m.feeds sl j).foldr insKey []
  let ss := m.scales r.2 sl mscb j
  let res := r.2.wave sl pc (fs.map (·.2.2) ++ ss.map (·.2.2))
  let got := (fs ++ ss).zip res.1
  let fd := (got.take fs.length).foldl (fun (f : Feed) x =>
    let v := x.2.map ofBytes
    let f := { f with psn := f.psn || v.isNone }
    if x.1.1 then { f with b := lset f.b ((if m.acc64 then j / 2 else j) * 64 + x.1.2.1) v }
    else { f with a := lset f.a (j * 64 + x.1.2.1) v }) r.1
  let g := if m.fa.width = 4 then j else j / 2
  let fd := (got.drop fs.length).foldl (fun (f : Feed) x =>
    let v := match x.2 with
      | some d => ofBytes d
      | none => 2 ^ 64 - 1
    let f := { f with psn := f.psn || x.2.isNone }
    let f := if x.1.1 then f else { f with sa := lset f.sa (g * 64 + x.1.2.1) v }
    if x.1.1 || x.1.2.1 = 0 then { f with sb := lset f.sb (g * 64 + x.1.2.1) v } else f) fd
  ({ fd with bankc := fd.bankc || res.2.1 }, res.2.2)

/-- Element k of row m of A, and of column n of B, as the feeders stream them (Table 09-6). -/
def MatOp.elA (o : MatOp) (f : Feed) (m k : Nat) : Fp.FVal :=
  let g := 4 * o.d
  match lget none f.a (k / g * 64 + m / 4) with
  | some v => Fp.decode o.fa (Fp.elem v o.fa.width (m % 4 * g + k % g))
  | none => .cnan
def MatOp.elB (o : MatOp) (f : Feed) (n k : Nat) : Fp.FVal :=
  let per := if o.acc64 then 2 else 4
  let g := if o.acc64 then 8 else 4 * o.d
  match lget none f.b (k / g * 64 + n / per) with
  | some v => Fp.decode o.fb (Fp.elem v o.fb.width (n % per * g + k % g))
  | none => .cnan

/-- Scale bytes of row m and column n for K position k; 0x7F where the operand is not scaled (R74, R238). -/
def MatOp.scA (o : MatOp) (f : Feed) (m k : Nat) : Nat :=
  if o.sca then Fp.elem (lget 0 f.sa (k / 32 * 64 + m / 4)) 8 (m % 4) else 0x7F
def MatOp.scB (o : MatOp) (f : Feed) (n k : Nat) : Nat :=
  if o.scb then Fp.elem (lget 0 f.sb (k / 32 * 64 + n / 4)) 8 (4 + n % 4) else 0x7F

/-- The products of output (m, n), in ascending K. -/
def MatOp.prods (o : MatOp) (f : Feed) (m n : Nat) : List (Nat × Fp.Flags) :=
  (List.range o.k).map (fun k =>
    let ca := o.scA f m k
    let cb := o.scB f n k
    let x := if ca = 0xFF then Fp.FVal.cnan else o.elA f m k
    let y := if cb = 0xFF then Fp.FVal.cnan else o.elB f n k
    Fp.product (if o.acc64 then Fp.fp64 else Fp.fp32) (o.fa == Fp.fp32) x y ((ca : Int) + cb - 254))

/-- The outputs that one cobble holds, under the masks (R227, R235, R244). -/
def MatOp.lane (o : MatOp) (f : Feed) (mrow mcol : BitVec 256) (l : Nat) (k : Cobble) : Cobble × Fp.Flags :=
  let x := l % 64
  let y := l / 64
  if o.acc64 then
    (List.range 8).foldl (fun r e =>
      let m := 4 * y + e / 2
      let n := 2 * x + e % 2
      if mrow.getLsbD m && mcol.getLsbD n then
        let v := Fp.accSeq Fp.fp64 o.zero (k.pos (2 * e) + 2 ^ 32 * k.pos (2 * e + 1)) (o.prods f m n)
        ((r.1.setPos (2 * e) v.1).setPos (2 * e + 1) (v.1 / 2 ^ 32), r.2 ||| v.2)
      else r) (k, 0)
  else
    (List.range 16).foldl (fun r e =>
      let m := 4 * y + e / 4
      let n := 4 * x + e % 4
      if mrow.getLsbD m && mcol.getLsbD n then
        let v := Fp.accSeq Fp.fp32 o.zero (k.pos e) (o.prods f m n)
        (r.1.setPos e v.1, r.2 ||| v.2)
      else r) (k, 0)

/-- A matrix operation runs (R239 to R245). -/
def State.matrix (s : State) (c sl : Nat) (p : Slot) (o : MatOp) : State :=
  let pc := (s.cob c).pc.toNat
  let (f, s) := (List.range o.waves).foldl (o.feedWave sl pc p.mscb.toNat) ({}, s)
  let (fl, s) := (List.range 4096).foldl (fun (r : Fp.Flags × State) l =>
    let q := laneCob sl l
    let v := o.lane f p.mrow p.mcol l (r.2.cob q)
    (r.1 ||| v.2, r.2.setCob q v.1)) (0, s)
  s.inFlight c 0 (pMat fl ||| pIf f.psn pPsn ||| pIf f.bankc pBankc)

/-- The traps of Table 09-5 on K and the panels; none where the operation may run. -/
def MatOp.check (o : MatOp) (s : State) (c : Nat) (w : W32) (p : Slot) : Option State :=
  if o.k % 64 != 0 || o.k < 64 || 65536 < o.k then some (s.illegal c w)
  else if o.a % 1024 != 0 then some (s.trap c 4 (BitVec.ofNat 64 o.a))
  else if o.b % 1024 != 0 then some (s.trap c 4 (BitVec.ofNat 64 o.b))
  else if 33554432 < o.a + o.spanA then some (s.trap c 5 (BitVec.ofNat 64 o.a))
  else if 33554432 < o.b + o.spanB then some (s.trap c 5 (BitVec.ofNat 64 o.b))
  else if o.scaled && p.lmSize < p.mscb.toNat + o.k / 4 then some (s.trap c 5 p.mscb)
  else none

/-- A combination of Table 09-4. -/
def comboOk (fa fb : Fp.Fmt) (acc64 : Bool) : Bool :=
  if acc64 then fa == Fp.fp32 && fb == Fp.fp32
  else (fa == fb && fa != Fp.fp64) || (is8 fa && is8 fb)

def execMma (c : Nat) (rk ra rb : BitVec 6) (tyA tyB : BitVec 3) (acc64 zero : Bool) (s : State) : Res :=
  let w := wPz 0x2D (rk ++ ra ++ rb ++ tyA ++ tyB ++ BitVec.ofBool acc64 ++ BitVec.ofBool zero)
  let fa := (Fp.ofCode tyA).getD Fp.fp64
  let fb := (Fp.ofCode tyB).getD Fp.fp64
  pzOp c w false [rk, ra, rb] [] { acc := .matrix } (fun _ _ => comboOk fa fb acc64)
    (fun sl k p s =>
      let o : MatOp := { fa := fa, fb := fb, k := (k.int rk).toNat, a := (k.int ra).toNat, b := (k.int rb).toNat,
                         acc64 := acc64, zero := zero }
      match o.check s c w p with
      | some t => t
      | none => s.matrix c sl p o) s

/-- The 2-bit types of MMAS: V8, G8, Q4. -/
def masFmt (t : BitVec 2) : Fp.Fmt := if t = 0 then Fp.v8 else if t = 1 then Fp.g8 else Fp.q4

def execMmas (c : Nat) (rk ra rb : BitVec 6) (tyA tyB : BitVec 2) (sca scb zero res : Bool) (s : State) : Res :=
  let w := wPz 0x2E (rk ++ ra ++ rb ++ tyA ++ tyB ++ BitVec.ofBool sca ++ BitVec.ofBool scb ++ BitVec.ofBool zero ++
    BitVec.ofBool res)
  let fa := masFmt tyA
  let fb := masFmt tyB
  pzOp c w false [rk, ra, rb] [] { acc := .matrix }
    (fun _ _ => tyA != 3 && tyB != 3 && !res && (sca || scb) && comboOk fa fb false)
    (fun sl k p s =>
      let o : MatOp := { fa := fa, fb := fb, k := (k.int rk).toNat, a := (k.int ra).toNat, b := (k.int rb).toNat,
                         acc64 := false, zero := zero, sca := sca, scb := scb }
      match o.check s c w p with
      | some t => t
      | none => s.matrix c sl p o) s

/-! ## Accumulators (R243; Table 09-9) -/

def wAcc (fn : Nat) (r1 rs1 r2 : BitVec 6) : W32 := wPz 0x2F (r1 ++ rs1 ++ r2 ++ BitVec.ofNat 8 fn)

/-- Every lane of a slot changes. -/
def State.eachLane (s : State) (sl : Nat) (f : Nat → Cobble → Cobble) : State :=
  (List.range 4096).foldl (fun s l => s.modCob (laneCob sl l) (f l)) s

def execAccz (c : Nat) (r1 rs1 r2 : BitVec 6) (s : State) : Res :=
  pzOp c (wAcc 0 r1 rs1 r2) false [] [] { acc := .writes } (fun _ _ => r1 == 0 && r2 == 0)
    (fun sl _ _ s => (s.eachLane sl (fun _ k => k.setTile 0 16)).inFlight c 0 0) s

/-- The address checks of ACCLD and ACCST. -/
def State.accTrap (s : State) (c : Nat) (p : Slot) (a : W64) : Option State :=
  if a.toNat % 8 != 0 then some (s.trap c 4 a)
  else if p.lmSize < a.toNat + 64 then some (s.trap c 5 a)
  else none

/-- The lane-memory accesses of wave w at lane address L, with the data of a store. -/
def State.accWave (s : State) (sl a w : Nat) (store : Bool) : List WAcc :=
  (List.range 4096).map (fun l =>
    let k := s.cob (laneCob sl l)
    { key := l, adr := s.lAddr sl l (a + 8 * w), len := 8,
      wr := if store then some (255, toBytes 8 (k.pos (2 * w) + 2 ^ 32 * k.pos (2 * w + 1))) else none })

def execAccld (c : Nat) (r1 rs1 r2 : BitVec 6) (s : State) : Res :=
  pzOp c (wAcc 1 r1 rs1 r2) false [rs1] [] { acc := .writes } (fun _ _ => r1 == 0 && r2 == 0)
    (fun sl k p s =>
      match s.accTrap c p (k.int rs1) with
      | some t => t
      | none =>
        let r := (List.range 8).foldl (fun (r : BitVec 11 × State) w =>
          let res := r.2.wave sl k.pc.toNat (r.2.accWave sl (k.int rs1).toNat w false)
          let t := ((List.range 4096).zip res.1).foldl (fun t x =>
            let v := match x.2 with
              | some d => ofBytes d
              | none => 0x7FC000007FC00000
            t.modCob (laneCob sl x.1) (fun q => (q.setPos (2 * w) v).setPos (2 * w + 1) (v / 2 ^ 32))) res.2.2
          (r.1 ||| pIf (res.1.any (·.isNone)) pPsn ||| pIf res.2.1 pBankc, t)) (0, s)
        r.2.inFlight c 0 r.1) s

def execAccst (c : Nat) (r1 rs1 r2 : BitVec 6) (s : State) : Res :=
  pzOp c (wAcc 2 r1 rs1 r2) false [rs1] [] { acc := .reads } (fun _ _ => r1 == 0 && r2 == 0)
    (fun sl k p s =>
      match s.accTrap c p (k.int rs1) with
      | some t => t
      | none =>
        let r := (List.range 8).foldl (fun (r : BitVec 11 × State) w =>
          let res := r.2.wave sl k.pc.toNat (r.2.accWave sl (k.int rs1).toNat w true)
          (r.1 ||| pIf res.2.1 pBankc, res.2.2)) (0, s)
        r.2.inFlight c 0 r.1) s

end Sys2Proof.Machine
end

