-- ==== Sys2Proof/Machine/Vector.lean ====
section
/-!
DEFINITION. Tiles of the piazza vector engine: element access, active elements, lengths, loads and stores, moves, lane
flags, compress and expand (R247 to R258, R272, R273, R277 to R281; Tables 10-1 to 10-4).
-/

namespace Sys2Proof.Machine

/-! ## Types and tiles (R247, R248; Table 10-1) -/

/-- Element width and elements per lane of a type code; 0b111 is I32. -/
def tyW (ty : BitVec 3) : Nat := if ty = 7 then 32 else ((Fp.ofCode ty).getD Fp.fp64).width
def tyN (ty : BitVec 3) : Nat := match ty.toNat with | 0 => 1 | 1 => 1 | 7 => 1 | 2 => 2 | 3 => 2 | 6 => 8 | _ => 4

/-- Columns of a tile in a type. -/
def tyCols (ty : BitVec 3) : Nat := 64 * tyN ty

def tyFmt (ty : BitVec 3) : Fp.Fmt := (Fp.ofCode ty).getD Fp.fp64

/-- A NaN of the type, all ones where it is I32 (R223). -/
def tyNan (ty : BitVec 3) : Nat := if ty = 7 then 0xFFFFFFFF else (tyFmt ty).cnanCode

/-- Is element (r, c) active (R250)? -/
def Slot.live (p : Slot) (ty : BitVec 3) (r c : Nat) : Bool := r < p.vlr && c < p.vlc && c < tyCols ty

/-- The word of lane l in tile t. -/
def State.lword (s : State) (sl t l : Nat) : Nat := ((s.cob (laneCob sl l)).fpN t).toNat

/-- Element (r, c) of tile t. -/
def State.tel (s : State) (sl t : Nat) (ty : BitVec 3) (r c : Nat) : Nat :=
  Fp.elem (s.lword sl t (64 * r + c / tyN ty)) (tyW ty) (c % tyN ty)

/-- A lane word with some elements replaced; a type other than FP64 sets bits [63:32] (R248). -/
def laneWord (ty : BitVec 3) (old : Nat) (g : Nat → Option Nat) : Option Nat :=
  let n := tyN ty
  if (List.range n).any (fun k => (g k).isSome) then
    let v := (List.range n).foldl (fun v k => match g k with
      | some x => Fp.splice v (tyW ty * k) (tyW ty) x
      | none => v) old
    some (if ty = 0 then v else 0xFFFFFFFF00000000 + v % 2 ^ 32)
  else none

/-- Writes the elements (r, c) for which `g` gives a value. -/
def State.tileWrite (s : State) (sl t : Nat) (ty : BitVec 3) (g : Nat → Nat → Option Nat) : State :=
  (List.range 4096).foldl (fun s l =>
    let k := s.cob (laneCob sl l)
    match laneWord ty (k.fpN t).toNat (fun e => g (l / 64) (l % 64 * tyN ty + e)) with
    | some v => s.setCob (laneCob sl l) (k.setFpN t (BitVec.ofNat 64 v))
    | none => s) s

/-- Lane flags (R277). -/
def Slot.addLane (p : Slot) (l : Nat) (f : Fp.Flags) : Slot :=
  if f = 0 then p else { p with lflags := lset p.lflags l (lget 0 p.lflags l ||| f) }

/-- The flags of all elements of a tile computation into its lanes; their OR. -/
def State.laneFlags (s : State) (sl : Nat) (ty : BitVec 3) (g : Nat → Nat → Option (Nat × Fp.Flags)) : Fp.Flags × State :=
  (List.range 4096).foldl (fun (r : Fp.Flags × State) l =>
    let f := (List.range (tyN ty)).foldl (fun f e => match g (l / 64) (l % 64 * tyN ty + e) with
      | some v => f ||| v.2
      | none => f) (0 : Fp.Flags)
    (r.1 ||| f, r.2.modSlot sl (fun p => p.addLane l f))) (0, s)

/-! ## Lengths (R250) -/

def wSetl (rd rs1 rs2 : BitVec 6) : W32 := wSet 0x01 rd rs1 rs2

def execVsetl (c : Nat) (rd rs1 rs2 : BitVec 6) (s : State) : Res :=
  pzOp c (wSetl rd rs1 rs2) false [rs1, rs2] [] {} (fun _ _ => rd == 0)
    (fun sl k _ s =>
      if 64 < (k.int rs1).toNat || 512 < (k.int rs2).toNat then s.illegal c (wSetl rd rs1 rs2)
      else (s.modSlot sl (fun p => { p with vlr := (k.int rs1).toNat, vlc := (k.int rs2).toNat })).inFlight c 1 0) s

/-! ## Loads and stores (R256 to R258) -/

/-- The fields of a TLDP or TSTP. -/
def wLdp (sel : Nat) (t : BitVec 5) (rs1 rs2 : BitVec 6) (ty band : BitVec 3) (cb : Bool) : W32 :=
  wPz 0x30 (t ++ rs1 ++ rs2 ++ ty ++ band ++ BitVec.ofBool cb ++ BitVec.ofNat 2 sel)

/-- Access bytes of a lane. -/
def tyBytes (ty : BitVec 3) : Nat := if ty = 0 then 8 else 4

/-- First row and rows of a band; none where the code is reserved for the type. -/
def bandRows (ty band : BitVec 3) : Option (Nat × Nat) :=
  let b := band.toNat
  if b = 4 then some (0, 64)
  else if ty = 0 then (if b < 4 then some (16 * b, 16) else none)
  else if b < 2 then some (32 * b, 32) else none

/-- The lanes of a band with an active element. -/
def Slot.bandLanes (p : Slot) (ty : BitVec 3) (lo n : Nat) : List Nat :=
  (List.range 4096).filter (fun l => lo ≤ l / 64 && l / 64 < lo + n && p.live ty (l / 64) (l % 64 * tyN ty))

/-- Byte mask of a lane's active elements. -/
def Slot.byteMask (p : Slot) (ty : BitVec 3) (l : Nat) : Nat :=
  (List.range (tyBytes ty)).foldl (fun m i =>
    if p.live ty (l / 64) (l % 64 * tyN ty + i * 8 / tyW ty) then m + 2 ^ i else m) 0

/-- The checks and body shared by TLDP and TSTP: address of the lane's access, as a piazza address. -/
def State.bandCheck (s : State) (c : Nat) (p : Slot) (ty : BitVec 3) (lo n : Nat) (cb : Bool) (base stride : W64) :
    Option State :=
  let al := tyBytes ty
  let lanes := p.bandLanes ty lo n
  let addr := fun l => base.toNat + (l / 64) * stride.toNat + (if cb then 0 else al * (l % 64))
  if base.toNat % al != 0 then some (s.trap c 4 base)
  else if stride.toNat % al != 0 then some (s.trap c 4 stride)
  else if lanes.any (fun l => 33554432 < addr l + al) then some (s.trap c 5 base)
  else none

/-- The piazza-store accesses of a band. -/
def bandAccs (sl : Nat) (ty : BitVec 3) (cb : Bool) (base stride : Nat) (lanes : List Nat)
    (wr : Nat → Option (Nat × List Byte)) : List WAcc :=
  let al := tyBytes ty
  lanes.map (fun l =>
    { key := l, adr := pAddr sl (base + (l / 64) * stride + (if cb then 0 else al * (l % 64))), len := al, wr := wr l })

/-- Loaded words go to the active elements of their lanes; a lost or poisoned one delivers NaN (R223, R257). -/
def State.loadLanes (s : State) (sl t : Nat) (ty : BitVec 3) (p : Slot) (cb : Bool)
    (got : List (Nat × Option (List Byte))) : State :=
  got.foldl (fun s x =>
    let l := x.1
    let k := s.cob (laneCob sl l)
    let g := fun e => if p.live ty (l / 64) (l % 64 * tyN ty + e) then
        some (match x.2 with
          | some d => Fp.elem (ofBytes d) (tyW ty) (if cb then 0 else e)
          | none => tyNan ty)
      else none
    match laneWord ty (k.fpN t).toNat g with
    | some v => s.setCob (laneCob sl l) (k.setFpN t (BitVec.ofNat 64 v))
    | none => s) s

def execTldp (c : Nat) (t : BitVec 5) (rs1 rs2 : BitVec 6) (ty band : BitVec 3) (cb : Bool) (s : State) : Res :=
  pzOp c (wLdp 0 t rs1 rs2 ty band cb) false [rs1, rs2] [] { outTiles := [t.toNat] }
    (fun _ _ => (bandRows ty band).isSome)
    (fun sl k p s =>
      let (lo, n) := (bandRows ty band).getD (0, 0)
      match s.bandCheck c p ty lo n cb (k.int rs1) (k.int rs2) with
      | some t => t
      | none =>
        let lanes := p.bandLanes ty lo n
        let r := s.wave sl k.pc.toNat (bandAccs sl ty cb (k.int rs1).toNat (k.int rs2).toNat lanes (fun _ => none))
        (r.2.2.loadLanes sl t.toNat ty p cb (lanes.zip r.1)).inFlight c 1
          (pIf (r.1.any (·.isNone)) pPsn ||| pIf r.2.1 pBankc)) s

/-- Is a store of half a byte asked for (Table 10-4)? -/
def Slot.q4odd (p : Slot) (ty : BitVec 3) : Bool := ty == 6 && p.vlc % 2 == 1

def execTstp (c : Nat) (t : BitVec 5) (rs1 rs2 : BitVec 6) (ty band : BitVec 3) (cb : Bool) (s : State) : Res :=
  pzOp c (wLdp 1 t rs1 rs2 ty band cb) false [rs1, rs2] [] { tiles := [t.toNat] }
    (fun _ p => (bandRows ty band).isSome && !p.q4odd ty)
    (fun sl k p s =>
      let (lo, n) := (bandRows ty band).getD (0, 0)
      match s.bandCheck c p ty lo n cb (k.int rs1) (k.int rs2) with
      | some t => t
      | none =>
        let lanes := p.bandLanes ty lo n
        let wr := fun l => some (p.byteMask ty l, toBytes (tyBytes ty) (s.lword sl t.toNat l))
        let r := s.wave sl k.pc.toNat (bandAccs sl ty cb (k.int rs1).toNat (k.int rs2).toNat lanes wr)
        r.2.2.inFlight c 1 (pIf r.2.1 pBankc)) s

/-- The fields of a TLDL or TSTL; BAND and CB play no part. -/
def wLdl (sel : Nat) (t : BitVec 5) (rs1 : BitVec 6) (ix : Bool) (ti : BitVec 5) (ty band : BitVec 3) (cb : Bool) : W32 :=
  wPz 0x30 (t ++ rs1 ++ BitVec.ofBool ix ++ ti ++ ty ++ band ++ BitVec.ofBool cb ++ BitVec.ofNat 2 sel)

/-- The traps of a lane-memory access. -/
def State.laneCheck (s : State) (c : Nat) (p : Slot) (ty : BitVec 3) (ix : Bool) (a : W64) : Option State :=
  if a.toNat % tyBytes ty != 0 then some (s.trap c 4 a)
  else if !ix && p.lmSize < a.toNat + tyBytes ty then some (s.trap c 5 a)
  else none

/-- The lane address of a lane: rs1, plus its element of Ti where IX = 1, low bits ignored. -/
def State.laneAddr (s : State) (sl : Nat) (ty : BitVec 3) (ix : Bool) (ti a l : Nat) : Nat :=
  if ix then (a + s.lword sl ti l % 2 ^ 32) / tyBytes ty * tyBytes ty else a

def execTldl (c : Nat) (t : BitVec 5) (rs1 : BitVec 6) (ix : Bool) (ti : BitVec 5) (ty band : BitVec 3) (cb : Bool)
    (s : State) : Res :=
  pzOp c (wLdl 2 t rs1 ix ti ty band cb) false [rs1] []
    { tiles := if ix then [ti.toNat] else [], outTiles := [t.toNat] } (fun _ _ => true)
    (fun sl k p s =>
      match s.laneCheck c p ty ix (k.int rs1) with
      | some t => t
      | none =>
        let lanes := p.bandLanes ty 0 64
        let at' := fun l => s.laneAddr sl ty ix ti.toNat (k.int rs1).toNat l
        let inn := lanes.filter (fun l => at' l + tyBytes ty ≤ p.lmSize)
        let out := lanes.filter (fun l => p.lmSize < at' l + tyBytes ty)
        let r := s.wave sl k.pc.toNat
          (inn.map (fun l => { key := l, adr := s.lAddr sl l (at' l), len := tyBytes ty }))
        (r.2.2.loadLanes sl t.toNat ty p false (inn.zip r.1 ++ out.map (fun l => (l, none)))).inFlight c 1
          (pIf (r.1.any (·.isNone) || !out.isEmpty) pPsn ||| pIf r.2.1 pBankc)) s

def execTstl (c : Nat) (t : BitVec 5) (rs1 : BitVec 6) (ix : Bool) (ti : BitVec 5) (ty band : BitVec 3) (cb : Bool)
    (s : State) : Res :=
  pzOp c (wLdl 3 t rs1 ix ti ty band cb) false [rs1] []
    { tiles := t.toNat :: (if ix then [ti.toNat] else []) } (fun _ p => !p.q4odd ty)
    (fun sl k p s =>
      match s.laneCheck c p ty ix (k.int rs1) with
      | some t => t
      | none =>
        let at' := fun l => s.laneAddr sl ty ix ti.toNat (k.int rs1).toNat l
        let inn := (p.bandLanes ty 0 64).filter (fun l => at' l + tyBytes ty ≤ p.lmSize)
        let r := s.wave sl k.pc.toNat (inn.map (fun l =>
          { key := l, adr := s.lAddr sl l (at' l), len := tyBytes ty,
            wr := some (p.byteMask ty l, toBytes (tyBytes ty) (s.lword sl t.toNat l)) }))
        r.2.2.inFlight c 1 (pIf r.2.1 pBankc)) s

/-! ## Compress and expand (R272, R273) -/

def w33 (sel : Nat) (td ts tm : BitVec 5) (rd : BitVec 6) (ty : BitVec 3) : W32 :=
  wPz 0x33 (td ++ ts ++ tm ++ rd ++ ty ++ BitVec.ofNat 2 sel)

/-- The selected positions in row-major order, counted over the full capacity. -/
def State.selected (s : State) (sl tm : Nat) (ty : BitVec 3) (p : Slot) : List Nat :=
  (List.range (64 * tyCols ty)).filter (fun i =>
    let r := i / tyCols ty
    let c := i % tyCols ty
    p.live ty r c && s.tel sl tm ty r c != 0)

/-- Position of `i` in a list. -/
def indexIn (l : List Nat) (i : Nat) : Option Nat := (List.range l.length).find? (fun k => l[k]? == some i)

def execTcmpr (c : Nat) (td ts tm : BitVec 5) (rd : BitVec 6) (ty : BitVec 3) (s : State) : Res :=
  pzOp c (w33 0 td ts tm rd ty) true [rd] []
    { tiles := [ts.toNat, tm.toNat], outTiles := [td.toNat], rd := some rd } (fun _ _ => true)
    (fun sl _ p s =>
      let sel := s.selected sl tm.toNat ty p
      let n := tyCols ty
      let s := s.tileWrite sl td.toNat ty (fun r q =>
        (sel[r * n + q]?).map (fun i => s.tel sl ts.toNat ty (i / n) (i % n)))
      (s.modCob c (fun k => k.setInt rd (BitVec.ofNat 64 sel.length))).inFlight c 1 0) s

def execTexpd (c : Nat) (td ts tm : BitVec 5) (rd : BitVec 6) (ty : BitVec 3) (s : State) : Res :=
  pzOp c (w33 1 td ts tm rd ty) true [rd] []
    { tiles := [ts.toNat, tm.toNat], outTiles := [td.toNat], rd := some rd } (fun _ _ => true)
    (fun sl _ p s =>
      let sel := s.selected sl tm.toNat ty p
      let n := tyCols ty
      let s := s.tileWrite sl td.toNat ty (fun r q =>
        (indexIn sel (r * n + q)).map (fun i => s.tel sl ts.toNat ty (i / n) (i % n)))
      (s.modCob c (fun k => k.setInt rd (BitVec.ofNat 64 sel.length))).inFlight c 1 0) s

/-! ## Moves and lane flags (R277 to R279) -/

def w35 (sel : Nat) (reg rs1 : BitVec 6) (t : BitVec 5) (ty : BitVec 3) (f : Bool) (r : BitVec 3) : W32 :=
  wPz 0x35 (reg ++ rs1 ++ t ++ ty ++ BitVec.ofBool f ++ r ++ BitVec.ofNat 2 sel)

/-- Row and column that rs1 names, and whether the column lies in the type. -/
def elRow (a : W64) : Nat := bits a.toNat 0 6
def elCol (a : W64) : Nat := bits a.toNat 16 9

def execTmvx (c : Nat) (reg rs1 : BitVec 6) (t : BitVec 5) (ty : BitVec 3) (f : Bool) (r : BitVec 3) (s : State) : Res :=
  pzOp c (w35 0 reg rs1 t ty f r) false (if f then [rs1] else [reg, rs1]) (if f then [reg] else [])
    { tiles := [t.toNat], outTiles := if f then [reg.toNat] else [], rd := if f then none else some reg } (fun _ _ => r == 0)
    (fun sl k _ s =>
      let a := k.int rs1
      if tyCols ty ≤ elCol a then s.trap c 5 a
      else
        let x := s.tel sl t.toNat ty (elRow a) (elCol a)
        let v : W64 := if ty = 7 then (BitVec.ofNat 32 x).signExtend 64
          else if ty = 1 && f then box32 x else BitVec.ofNat 64 x
        (s.modCob c (fun k => if f then k.setFp reg v else k.setInt reg v)).inFlight c 1 0) s

def execTmvi (c : Nat) (reg rs1 : BitVec 6) (t : BitVec 5) (ty : BitVec 3) (f : Bool) (r : BitVec 3) (s : State) : Res :=
  pzOp c (w35 1 reg rs1 t ty f r) false (if f then [rs1] else [reg, rs1]) (if f then [reg] else [])
    { outTiles := [t.toNat] } (fun _ _ => r == 0)
    (fun sl k _ s =>
      let a := k.int rs1
      if tyCols ty ≤ elCol a then s.trap c 5 a
      else
        let x := (if f then k.fp reg else k.int reg).toNat
        (s.tileWrite sl t.toNat ty (fun r q => if r = elRow a && q = elCol a then some x else none)).inFlight c 1 0) s

/-- TFLG: a mask tile from the lanes' flags; rs1[5] clears the selected flags. -/
def execTflg (c : Nat) (reg rs1 : BitVec 6) (t : BitVec 5) (ty : BitVec 3) (f : Bool) (r : BitVec 3) (s : State) : Res :=
  pzOp c (w35 2 reg rs1 t ty f r) false [rs1] [] { outTiles := [t.toNat] } (fun _ _ => r == 0)
    (fun sl k p s =>
      let m : Fp.Flags := (k.int rs1).setWidth 5
      let s := s.tileWrite sl t.toNat 7 (fun r q => some (if lget 0 p.lflags (64 * r + q) &&& m != 0 then 0xFFFFFFFF else 0))
      let s := if (k.int rs1).getLsbD 5 then
          s.modSlot sl (fun p => { p with lflags := p.lflags.map (fun e => (e.1, e.2 &&& ~~~ m)) })
        else s
      s.inFlight c 1 0) s

end Sys2Proof.Machine
end

