-- ==== Sys2Proof/Machine/Chain.lean ====
section
/-!
DEFINITION. Chain descriptors, fused chains and TOP (R259 to R268; Tables 10-5 to 10-9).
-/

namespace Sys2Proof.Machine

/-! ## Descriptors (R261 to R263; Tables 10-6 and 10-7) -/

/-- A chain stage (Table 10-7). -/
structure Stage where
  op : Nat
  ty : BitVec 3
  tys : BitVec 3
  src : List Nat
  mods : List Nat
  dst : Nat
  wr : Bool
  alt : Nat
  amx : Bool
  aux : Nat
deriving DecidableEq, Repr

/-- Stage i of a descriptor, whose 64 bytes are a number. -/
def stageOf (d i : Nat) : Stage :=
  let w := bits d (64 + 48 * i) 48
  { op := bits w 43 5, ty := BitVec.ofNat 3 (bits w 40 3), tys := BitVec.ofNat 3 (bits w 37 3),
    src := [bits w 31 6, bits w 25 6, bits w 19 6], mods := [bits w 17 2, bits w 15 2, bits w 13 2],
    dst := bits w 8 5, wr := bit w 7, alt := bits w 4 3, amx := bit w 3, aux := bits w 0 3 }

/-- Number of stages of a descriptor, and its stages. -/
def stagesOf (d : Nat) : List Stage := (List.range (bits d 61 3 + 1)).map (stageOf d)

/-- The scalar source Xi of a header: (f register?, number). -/
def xOf (d i : Nat) : Bool × BitVec 6 :=
  let v := bits d (49 - 7 * i) 7
  (bit v 6, BitVec.ofNat 6 v)

/-- Elements per lane of the wider and narrower of two formats, and their ratio (R267). -/
def cvtRatio (a b : BitVec 3) : Nat := max (tyN a) (tyN b) / min (tyN a) (tyN b)

/-- May a source code and modifier stand in stage `i` of type `ty` (R259, R260)? -/
def srcOk (i : Nat) (ty : BitVec 3) (code m : Nat) : Bool :=
  if code < 32 then true
  else if code < 40 then code - 32 < i && m == 0
  else if code < 45 then m == 0
  else if code < 48 then false
  else ty == 1 || (ty == 0 && code % 2 == 0)

/-- Is a type allowed for an operation (Table 10-8)? Codes 0x0E, 0x0F and 0x16 up are reserved. -/
def opTyOk (op : Nat) (ty : BitVec 3) : Bool :=
  if op = 0xE || op = 0xF || 0x16 ≤ op then false
  else if op = 3 || op = 4 || op = 5 || (0x10 ≤ op && op ≤ 0x14) then ty != 7
  else true

/-- Is a stage valid (R263)? -/
def Stage.ok (g : Stage) (i : Nat) : Bool :=
  let cvt := g.op == 0x15
  let r := cvtRatio g.ty g.tys
  let wide8 := is8 (tyFmt g.ty) && g.ty != 7
  opTyOk g.op g.ty
    && (List.range 3).all (fun j => srcOk i g.ty (g.src.getD j 0) (g.mods.getD j 0))
    && (cvt || g.tys == 0) && (cvt || g.aux == 0) && (cvt || !g.amx)
    && (g.alt == 0 || wide8 || cvt) && (!cvt || g.alt < 4)
    && (g.op != 0x14 || (40 ≤ g.src.getD 1 0 && g.src.getD 1 0 ≤ 43))
    && (!cvt || (g.ty != g.tys && g.aux < r && (r != 1 || g.src.getD 2 0 == 44)
        && (!g.amx || !(g.ty == 0 || g.ty == 1 || g.ty == 7))))

/-- Is a descriptor valid (R263)? -/
def descOk (d : Nat) : Bool :=
  bits d 56 5 == 0 && bits d 0 28 == 0 && bits d 448 64 == 0
    && (List.range (bits d 61 3 + 1)).all (fun i => (stageOf d i).ok i)

/-- CHLD: copies a descriptor; a poisoned word reads as ones, which no valid descriptor holds (notes/assumptions/27.md). -/
def execChld (c : Nat) (slot rs1 rs2 : BitVec 6) (s : State) : Res :=
  pzOp c (wSet 0x02 slot rs1 rs2) false [rs1, rs2] [] { outChain := some slot.toNat }
    (fun _ _ => rs2 == 0 && slot.toNat < 16)
    (fun sl k p s =>
      let a := k.int rs1
      if a.toNat % 64 != 0 then s.trap c 4 a
      else if p.lmbase < a.toNat + 64 then s.trap c 5 a
      else
        let s := match youngest k.stbuf a.toNat 64 with
          | none => s
          | some i => s.stDrain c (i + 1)
        let (d, psn, s) := s.readMem (scrAddr c a.toNat) 64
        let d := if psn then List.replicate 64 255 else d
        let v := descOk (ofBytes d)
        (s.modSlot sl (fun p => { p with chains := lset p.chains slot.toNat { valid := v, desc := d } })).inFlight c 1
          (pIf psn pPsn)) s

/-! ## Evaluation (R264, R265) -/

/-- What the lanes read: lane words of tiles, results of earlier stages, scalars, sub-tiles. -/
structure Env where
  tile : Nat → Nat → Nat
  res : List (Nat → Nat)
  x : Nat → Nat
  acc : Nat → Nat → Nat

/-- Element (r, c) of a source read in type `ty` by a stage whose TY is `st`, under a broadcast modifier. TY settles what a sub-tile's
code names: one sub-tile, or the pair as 64-bit words (R260, notes/assumptions/98.md). -/
def Env.get (v : Env) (st ty : BitVec 3) (code m r c : Nat) : Nat :=
  let n := tyN ty
  let w := tyW ty
  let r := if m = 1 || m = 3 then 0 else r
  let c := if m = 2 || m = 3 then 0 else c
  let l := 64 * r + c / n
  if code < 32 then Fp.elem (v.tile code l) w (c % n)
  else if code < 40 then Fp.elem ((v.res.getD (code - 32) (fun _ => 0)) l) w (c % n)
  else if code < 44 then v.x (code - 40) % 2 ^ w
  else if code < 48 then 0
  else
    let i := code - 48
    Fp.elem (if st = 0 then v.acc i l + 2 ^ 32 * v.acc (i + 1) l else v.acc i l) w (c % n)

/-- I32 operations (Table 10-8). -/
def i32Op (op a b : Nat) : Nat :=
  let x := BitVec.ofNat 32 a
  let y := BitVec.ofNat 32 b
  let m := fun (t : Bool) => if t then 0xFFFFFFFF else 0
  match op with
  | 0 => (x + y).toNat
  | 1 => (x - y).toNat
  | 2 => (x * y).toNat
  | 6 => if y.slt x then y.toNat else x.toNat
  | 7 => if x.slt y then y.toNat else x.toNat
  | 8 => m (x == y)
  | 9 => m (x.slt y)
  | 10 => m (x.sle y)
  | 13 => if x.slt 0 then (-x).toNat else x.toNat
  | _ => a

/-- Sign cleared; a NaN code stays NaN. -/
def absBits (f : Fp.Fmt) (a : Nat) : Nat := if !f.ieee && a = f.cnanCode then a else a % 2 ^ (f.width - 1)

/-- One converted element between vector types (R68, R267): integers reach the short formats through FP32. -/
def cvtElem (src dst : BitVec 3) (rm : Fp.RM) (ov : Fp.Ovf) (a : Nat) : Nat × Fp.Flags :=
  if src = 7 then
    let x := (BitVec.ofNat 32 a).toInt
    if (tyFmt dst).wide then Fp.ofInt (tyFmt dst) rm x
    else
      let r := Fp.ofInt Fp.fp32 rm x
      let q := Fp.put (tyFmt dst) rm ov (Fp.decode Fp.fp32 r.1, 0)
      (q.1, r.2 ||| q.2)
  else if dst = 7 then
    let r := Fp.toInt 32 true rm (Fp.decode (tyFmt src) a)
    ((BitVec.ofInt 32 r.1).toNat, r.2)
  else Fp.put (tyFmt dst) rm ov (Fp.decode (tyFmt src) a, 0)

/-- A stage operation other than CVT on elements of its type; `xb` is the whole scalar of SCALE. -/
def stageElem (g : Stage) (rm : Fp.RM) (ov : Fp.Ovf) (a b c xb : Nat) : Nat × Fp.Flags :=
  let f := tyFmt g.ty
  let w := tyW g.ty
  let alt := fun i => if is8 f && bit g.alt i then other8 f else f
  if g.op = 0xB then ((a &&& b) ||| ((2 ^ w - 1 - a) &&& c), 0)
  else if g.op = 0xC then (a, 0)
  else if g.ty = 7 then (i32Op g.op a b, 0)
  else if g.op = 0xD then (absBits f a, 0)
  else if g.op = 0x14 then
    match Fp.decode (alt 0) a with
    | .fin n m e => Fp.put f rm ov (.fin n m (e + (BitVec.ofNat 32 xb).toInt), 0)
    | _ => (a, 0)
  else if 0x10 ≤ g.op then Fp.approx (g.op - 0x10) (alt 0) f ov a
  else Fp.elemOp g.op f (alt 0) (alt 1) (alt 2) rm ov a b c

/-- Element (r, c) of a stage's result: value and flags (R264, R267). -/
def stageAt (g : Stage) (v : Env) (rm : Fp.RM) (ov : Fp.Ovf) (r c : Nat) : Nat × Fp.Flags :=
  let s := fun (j : Nat) (ty : BitVec 3) c => v.get g.ty ty (g.src.getD j 0) (g.mods.getD j 0) r c
  if g.op = 0x15 then
    let n := tyN g.ty
    let m := tyN g.tys
    if m < n then
      let q := c % n
      if q / m = g.aux then cvtElem g.tys g.ty rm ov (s 0 g.tys (c / n * m + q % m))
      else (s 2 g.ty c, 0)
    else cvtElem g.tys g.ty rm ov (s 0 g.tys (c / n * m + g.aux * n + c % n))
  else stageElem g rm ov (s 0 g.ty c) (s 1 g.ty c) (s 2 g.ty c) (v.x (g.src.getD 1 0 - 40))

/-- Source elements that a CVT stage converts, for AMAX: those of its active elements (R268). DESIGN CHOICE
(notes/assumptions/99.md): an I32 magnitude becomes its FP32 candidate rounded toward +∞, as an FP64 one does. -/
def cvtSources (g : Stage) (p : Slot) (v : Env) : List Fp.FVal :=
  let n := tyN g.ty
  let m := tyN g.tys
  let f := tyFmt g.tys
  (List.range (64 * tyCols g.ty)).filterMap (fun i =>
    let r := i / tyCols g.ty
    let c := i % tyCols g.ty
    let col := if m < n then (if c % n / m = g.aux then some (c / n * m + c % n % m) else none)
      else some (c / n * m + g.aux * n + c % n)
    if p.live g.ty r c then col.map (fun q =>
      let x := v.get g.ty g.tys (g.src.getD 0 0) (g.mods.getD 0 0) r q
      if g.tys = 7 then
        let i := (BitVec.ofNat 32 x).toInt
        .fin (decide (i < 0)) i.natAbs 0
      else Fp.decode f x)
    else none)

/-- The result of a stage as lane words: 0 in every inactive element. -/
def stageWords (g : Stage) (p : Slot) (v : Env) (rm : Fp.RM) (ov : Fp.Ovf) (l : Nat) : Nat :=
  (Fp.build (tyW g.ty) (fun k =>
    let c := l % 64 * tyN g.ty + k
    if p.live g.ty (l / 64) c then ((stageAt g v rm ov (l / 64) c).1, 0) else (0, 0)) (tyN g.ty)).1

/-- The flags of a stage in a lane's active elements. -/
def stageFlags (g : Stage) (p : Slot) (v : Env) (rm : Fp.RM) (ov : Fp.Ovf) (l : Nat) : Fp.Flags :=
  (Fp.build 0 (fun k =>
    let c := l % 64 * tyN g.ty + k
    if p.live g.ty (l / 64) c then (0, (stageAt g v rm ov (l / 64) c).2) else (0, 0)) (tyN g.ty)).2

/-- Updates a PAMAX accumulator with candidates (R71, R268). -/
def Slot.amax (p : Slot) (i : Nat) (vs : List Fp.FVal) : Slot :=
  let old := (lget 0 p.pamax i).toNat
  let r := Fp.amaxAll (bit old 32) (old % 2 ^ 31) vs
  { p with pamax := lset p.pamax i (BitVec.ofNat 64 (boolNat r.1 * 2 ^ 32 + r.2)) }

/-- Runs stages in order: the environments before each, with the results so far. -/
def runStages (p : Slot) (rm : Fp.RM) (ov : Fp.Ovf) : Env → List Stage → List (Stage × Env)
  | _, [] => []
  | v, g :: gs => (g, v) :: runStages p rm ov { v with res := v.res ++ [stageWords g p v rm ov] } gs

/-- A chain of stages takes effect: all sources are read first; the writes land together, later stages over earlier
ones; flags to the lanes; AMAX updates (R264, R268, R277). -/
def State.chain (s : State) (c sl : Nat) (k : Cobble) (p : Slot) (x : Nat → Nat) (gs : List Stage) : State :=
  let v : Env := { tile := fun t l => s.lword sl t l, res := [], x := x,
                   acc := fun i l => (s.cob (laneCob sl l)).pos i }
  let run := runStages p k.dir k.ovf v gs
  let s1 := run.foldl (fun t e => if e.1.wr then
      t.tileWrite sl e.1.dst e.1.ty (fun r q =>
        if p.live e.1.ty r q then some (stageAt e.1 e.2 k.dir k.ovf r q).1 else none)
    else t) s
  let (fl, s2) := (List.range 4096).foldl (fun (r : Fp.Flags × State) l =>
    let f := run.foldl (fun f e => f ||| stageFlags e.1 p e.2 k.dir k.ovf l) (0 : Fp.Flags)
    (r.1 ||| f, r.2.modSlot sl (fun q => q.addLane l f))) ((0 : Fp.Flags), s1)
  let s3 := run.foldl (fun t e => if e.1.amx then t.modSlot sl (fun q => q.amax (e.1.alt % 4) (cvtSources e.1 p e.2)) else t) s2
  s3.inFlight c 1 (pVec fl)

/-- The scalar sources that the stages of a descriptor use. -/
def usedX (d : Nat) : List Nat :=
  (List.range 4).filter (fun i => (stagesOf d).any (fun g => g.src.any (· == 40 + i)))

/-- What the stages use: tiles they read and write, sub-tiles, PAMAX. -/
def stagesUse (gs : List Stage) : PUse :=
  let src := gs.flatMap (·.src)
  { tiles := src.filter (· < 32), outTiles := (gs.filter (·.wr)).map (·.dst),
    acc := if src.any (48 ≤ ·) then .reads else .none, amax := (gs.filter (·.amx)).map (·.alt % 4) }

/-- CHAIN: the slot must be VALID; its scalar sources are read at issue (R259, R264). -/
def execChain (c : Nat) (slot : BitVec 4) (r : BitVec 20) (s : State) : Res :=
  let w := wPz 0x32 (slot ++ r ++ 0#2)
  let d := ofBytes (lget ({} : ChainSlot) (s.slotOf c).chains slot.toNat).desc
  let used := (usedX d).map (xOf d)
  pzOp c w true ((used.filter (fun x => !x.1)).map (·.2)) ((used.filter (·.1)).map (·.2))
    { stagesUse (stagesOf d) with chain := some slot.toNat }
    (fun _ p => r == 0 && (lget ({} : ChainSlot) p.chains slot.toNat).valid)
    (fun sl k p s =>
      s.chain c sl k p (fun i => let x := xOf d i; (if x.1 then k.fp x.2 else k.int x.2).toNat) (stagesOf d)) s

/-- Operations that TOP allows (Table 10-8). -/
def topOp (op : Nat) : Bool :=
  op ∈ [0, 1, 2, 6, 7, 8, 9, 10, 12, 13, 0x10, 0x11, 0x12, 0x13]

/-- TOP: a one-stage chain of Ta and Tb into Td (R265). -/
def execTop (c : Nat) (td ta tb op : BitVec 5) (ty : BitVec 3) (bb : BitVec 2) (r : Bool) (s : State) : Res :=
  pzOp c (wPz 0x31 (td ++ ta ++ tb ++ op ++ ty ++ bb ++ BitVec.ofBool r)) true [] []
    { tiles := [ta.toNat, tb.toNat], outTiles := [td.toNat] }
    (fun _ _ => !r && topOp op.toNat && opTyOk op.toNat ty)
    (fun sl k p s =>
      s.chain c sl k p (fun _ => 0)
        [{ op := op.toNat, ty := ty, tys := 0, src := [ta.toNat, tb.toNat, 44], mods := [0, bb.toNat, 0],
           dst := td.toNat, wr := true, alt := 0, amx := false, aux := 0 }]) s

end Sys2Proof.Machine
end

