-- ==== Sys2Proof/Machine/Control.lean ====
section
/-!
DEFINITION. Control transfer, window calls and returns, and system control (R87 to R91, R102, R103, R105 to R107, R536;
Table 04-14).
-/

namespace Sys2Proof.Machine

/-- A branch: its own address plus 4 × off where the condition holds (R91). -/
def branch (op sel c : Nat) (rs1 rs2 : BitVec 6) (off : BitVec 12) (cond : W64 → W64 → Bool) (s : State) : Res :=
  issue c (wRKs op rs1 rs2 sel off) [rs1, rs2] []
    (fun k s =>
      if cond (k.int rs1) (k.int rs2) then s.setCob c { k with pc := k.pc + 4 * off.signExtend 64 }
      else s.retire c k) s

def execBrEq (c : Nat) (rs1 rs2 : BitVec 6) (off : BitVec 12) (s : State) : Res :=
  branch 0x12 0 c rs1 rs2 off (fun a b => a == b) s
def execBrNe (c : Nat) (rs1 rs2 : BitVec 6) (off : BitVec 12) (s : State) : Res :=
  branch 0x12 1 c rs1 rs2 off (fun a b => a != b) s
def execBrLt (c : Nat) (rs1 rs2 : BitVec 6) (off : BitVec 12) (s : State) : Res :=
  branch 0x12 2 c rs1 rs2 off (fun a b => a.slt b) s
def execBrGe (c : Nat) (rs1 rs2 : BitVec 6) (off : BitVec 12) (s : State) : Res :=
  branch 0x12 3 c rs1 rs2 off (fun a b => !a.slt b) s
def execBrLtu (c : Nat) (rs1 rs2 : BitVec 6) (off : BitVec 12) (s : State) : Res :=
  branch 0x13 0 c rs1 rs2 off (fun a b => a.ult b) s
def execBrGeu (c : Nat) (rs1 rs2 : BitVec 6) (off : BitVec 12) (s : State) : Res :=
  branch 0x13 1 c rs1 rs2 off (fun a b => !a.ult b) s

/-- JLINK: q7 is register number 39. -/
def execJlink (c : Nat) (off : BitVec 26) (s : State) : Res :=
  issue c (wJT 0x14 off) [39#6] []
    (fun k s => s.setCob c { k.setInt 39#6 (k.pc + 4) with pc := k.pc + 4 * off.signExtend 64 }) s

def execJlinkr (c : Nat) (rd rs1 : BitVec 6) (imm : BitVec 14) (s : State) : Res :=
  issue c (wRK 0x15 rd rs1 imm) [rd, rs1] []
    (fun k s => s.setCob c { k.setInt rd (k.pc + 4) with pc := k.int rs1 + imm.signExtend 64 }) s

/-- A window call to `target` (R88): p7 of the new window is register 7 of S[TOP]. -/
def State.wcall (s : State) (c : Nat) (target : W64) : State :=
  let k := s.cob c
  if k.tw then s.exhaust c
  else if k.held = 4 then s.trap c 1 0
  else if k.intBusy (setIdx k.top 7) then s
  else s.setCob c { k.setIntIdx (setIdx k.top 7) (k.pc + 4) with
    top := (k.top + 1) % 5, held := k.held + 1, depth := k.depth + 1, pc := target }

def execWcall (c : Nat) (off : BitVec 26) (s : State) : Res :=
  issue c (wJT 0x16 off) [] [] (fun k s => s.wcall c (k.pc + 4 * off.signExtend 64)) s

/-- WCALLR: its rd field must be 0 (Table 04-14). -/
def execWcallr (c : Nat) (rd rs1 : BitVec 6) (imm : BitVec 14) (s : State) : Res :=
  issue c (wRK 0x39 rd rs1 imm) [rd, rs1] []
    (fun k s =>
      if rd != 0 then s.illegal c (wRK 0x39 rd rs1 imm) else s.wcall c (k.int rs1 + imm.signExtend 64)) s

/-- WRET: every field 0; p7 is register number 23 (R88). -/
def execWret (c : Nat) (fields : BitVec 26) (s : State) : Res :=
  issue c (wJT 0x3A fields) [23#6] []
    (fun k s =>
      if fields != 0 then s.illegal c (wJT 0x3A fields)
      else if k.tw then s.exhaust c
      else if k.held = 1 then s.trap c 2 0
      else s.setCob c { k with
        top := (k.top + 4) % 5, held := k.held - 1, depth := k.depth - 1, pc := k.int 23#6 }) s

/-! ## System control -/

/-- A system-control instruction: the rd field `n` selects it, rs1 = 0, the immediate must satisfy `ok`. -/
def sysOp (n c : Nat) (rs1 : BitVec 6) (imm : BitVec 14) (ok : Bool) (body : Cobble → State → State)
    (s : State) : Res :=
  issue c (wRK 0x3B (BitVec.ofNat 6 n) rs1 imm) [rs1] []
    (fun k s => if rs1 != 0 || !ok then s.illegal c (wRK 0x3B (BitVec.ofNat 6 n) rs1 imm) else body k s) s

/-- FENCE issues once everything earlier is done (R102). -/
def execFence (c : Nat) (rs1 : BitVec 6) (imm : BitVec 14) (s : State) : Res :=
  sysOp 0 c rs1 imm (imm == 0) (fun k s => if s.drained c then s.retire c k else s) s

/-- PHASE: the PHASEID CSR and the island's current phase; in a piazza only the control cobble runs (R107). -/
def execPhase (c : Nat) (rs1 : BitVec 6) (imm : BitVec 14) (s : State) : Res :=
  sysOp 1 c rs1 imm (imm.toNat < 32)
    (fun k s =>
      let p : BitVec 5 := imm.setWidth 5
      let s := s.retire c { k with phaseid := p }
      (s.modIsl (islOf c) (fun i => { i with phase := p })).traceFree c .phase) s

/-- WAIT: passes while an enabled interrupt is pending, otherwise holds issue (R105). -/
def execWait (c : Nat) (rs1 : BitVec 6) (imm : BitVec 14) (s : State) : Res :=
  sysOp 2 c rs1 imm (imm == 0)
    (fun k s => if (s.dueBit c).isSome then s.retire c k else s.setCob c { k with hold := .waitInt }) s

/-- EXIT: once drained, the core's part of the context has ended (R106, R401). -/
def execExit (c : Nat) (rs1 : BitVec 6) (imm : BitVec 14) (s : State) : Res :=
  sysOp 3 c rs1 imm (imm == 0)
    (fun k s => if s.drained c then (s.setCob c { k with run := .exited }).coreEnded c else s) s

def execTrap (c : Nat) (rs1 : BitVec 6) (imm : BitVec 14) (s : State) : Res :=
  sysOp 4 c rs1 imm true (fun _ s => s.trap c 0xB (imm.zeroExtend 64)) s

/-- BRK: BREAKPOINT, or a halt while the partition's debug is unlocked; the halt resumes after the BRK (R518). -/
def execBrk (c : Nat) (rs1 : BitVec 6) (imm : BitVec 14) (s : State) : Res :=
  sysOp 5 c rs1 imm (imm == 0)
    (fun k s =>
      if (lget {} s.parts (s.partOfBlk (blkOf c))).debug then
        (s.setCob c { k.adv with halted := true }).traceFree c .halt
      else s.trap c 0xA ((wRK 0x3B 5#6 rs1 imm).zeroExtend 64)) s

/-- HRET n (R103): illegal outside the trap window. -/
def execHret (c : Nat) (rs1 : BitVec 6) (imm : BitVec 14) (s : State) : Res :=
  sysOp 6 c rs1 imm (imm.toNat < 2)
    (fun k s =>
      if k.tw then s.setCob c (k.leave imm.toNat) else s.illegal c (wRK 0x3B 6#6 rs1 imm)) s

end Sys2Proof.Machine
end

