-- ==== Sys2Proof/Machine/IntAlu.lean ====
section
/-!
DEFINITION. The integer groups: register forms, immediate forms, LDHI and PCHI, multiply and divide
(R85, R93, R536; Tables 04-4 and 04-14).
-/

namespace Sys2Proof.Machine

/-- A word form: the operation on bits [31:0] of each operand, its result sign-extended (R93). -/
def wordForm (g : W32 → W32 → W32) (a b : W64) : W64 := (g (a.setWidth 32) (b.setWidth 32)).signExtend 64

/-- Value of a register form: 64-bit, or the word form. -/
def rrValue (w : Bool) (f : W64 → W64 → W64) (g : W32 → W32 → W32) (a b : W64) : W64 :=
  if w then wordForm g a b else f a b

/-- A register-register instruction of major `op`, member `fn`. -/
def intRR (op fn c : Nat) (w : Bool) (rd rs1 rs2 : BitVec 6) (f : W64 → W64 → W64) (g : W32 → W32 → W32)
    (s : State) : Res :=
  issue c (wRR op rd rs1 rs2 (fn + 64 * boolNat w)) [rd, rs1, rs2] []
    (fun k s => s.retire c (k.setInt rd (rrValue w f g (k.int rs1) (k.int rs2)))) s

/-- Shift amounts: the low 6 bits, or the low 5 in a word form (R93). -/
def shl64 (a b : W64) : W64 := a <<< (b.toNat % 64)
def shl32 (a b : W32) : W32 := a <<< (b.toNat % 32)
def shr64 (a b : W64) : W64 := a >>> (b.toNat % 64)
def shr32 (a b : W32) : W32 := a >>> (b.toNat % 32)
def sra64 (a b : W64) : W64 := a.sshiftRight (b.toNat % 64)
def sra32 (a b : W32) : W32 := a.sshiftRight (b.toNat % 32)

def slt {n : Nat} (a b : BitVec n) : BitVec n := if a.slt b then 1#n else 0#n
def sltu {n : Nat} (a b : BitVec n) : BitVec n := if a.ult b then 1#n else 0#n
def smin {n : Nat} (a b : BitVec n) : BitVec n := if a.slt b then a else b
def smax {n : Nat} (a b : BitVec n) : BitVec n := if a.slt b then b else a
def umin {n : Nat} (a b : BitVec n) : BitVec n := if a.ult b then a else b
def umax {n : Nat} (a b : BitVec n) : BitVec n := if a.ult b then b else a

/-- The high half of the exact signed or unsigned product (R93). -/
def mulhs {n : Nat} (a b : BitVec n) : BitVec n := BitVec.ofInt n (a.toInt * b.toInt / 2 ^ n)
def mulhu {n : Nat} (a b : BitVec n) : BitVec n := BitVec.ofNat n (a.toNat * b.toNat / 2 ^ n)

def execAdd (c : Nat) (w : Bool) (rd rs1 rs2 : BitVec 6) (s : State) : Res :=
  intRR 0 0 c w rd rs1 rs2 (· + ·) (· + ·) s
def execSub (c : Nat) (w : Bool) (rd rs1 rs2 : BitVec 6) (s : State) : Res :=
  intRR 0 1 c w rd rs1 rs2 (· - ·) (· - ·) s
def execAnd (c : Nat) (w : Bool) (rd rs1 rs2 : BitVec 6) (s : State) : Res :=
  intRR 0 2 c w rd rs1 rs2 (· &&& ·) (· &&& ·) s
def execOr (c : Nat) (w : Bool) (rd rs1 rs2 : BitVec 6) (s : State) : Res :=
  intRR 0 3 c w rd rs1 rs2 (· ||| ·) (· ||| ·) s
def execXor (c : Nat) (w : Bool) (rd rs1 rs2 : BitVec 6) (s : State) : Res :=
  intRR 0 4 c w rd rs1 rs2 (· ^^^ ·) (· ^^^ ·) s
def execShll (c : Nat) (w : Bool) (rd rs1 rs2 : BitVec 6) (s : State) : Res :=
  intRR 0 5 c w rd rs1 rs2 shl64 shl32 s
def execShrl (c : Nat) (w : Bool) (rd rs1 rs2 : BitVec 6) (s : State) : Res :=
  intRR 0 6 c w rd rs1 rs2 shr64 shr32 s
def execShra (c : Nat) (w : Bool) (rd rs1 rs2 : BitVec 6) (s : State) : Res :=
  intRR 0 7 c w rd rs1 rs2 sra64 sra32 s
def execSetlt (c : Nat) (w : Bool) (rd rs1 rs2 : BitVec 6) (s : State) : Res :=
  intRR 0 8 c w rd rs1 rs2 slt slt s
def execSetltu (c : Nat) (w : Bool) (rd rs1 rs2 : BitVec 6) (s : State) : Res :=
  intRR 0 9 c w rd rs1 rs2 sltu sltu s
def execMin (c : Nat) (w : Bool) (rd rs1 rs2 : BitVec 6) (s : State) : Res :=
  intRR 0 10 c w rd rs1 rs2 smin smin s
def execMax (c : Nat) (w : Bool) (rd rs1 rs2 : BitVec 6) (s : State) : Res :=
  intRR 0 11 c w rd rs1 rs2 smax smax s
def execMinu (c : Nat) (w : Bool) (rd rs1 rs2 : BitVec 6) (s : State) : Res :=
  intRR 0 12 c w rd rs1 rs2 umin umin s
def execMaxu (c : Nat) (w : Bool) (rd rs1 rs2 : BitVec 6) (s : State) : Res :=
  intRR 0 13 c w rd rs1 rs2 umax umax s

/-- An immediate form of major `op` on a sign-extended 14-bit immediate. -/
def intRK (op c : Nat) (rd rs1 : BitVec 6) (imm : BitVec 14) (f : W64 → W64 → W64) (s : State) : Res :=
  issue c (wRK op rd rs1 imm) [rd, rs1] []
    (fun k s => s.retire c (k.setInt rd (f (k.int rs1) (imm.signExtend 64)))) s

def execAddI (c : Nat) (rd rs1 : BitVec 6) (imm : BitVec 14) (s : State) : Res := intRK 1 c rd rs1 imm (· + ·) s
def execAndI (c : Nat) (rd rs1 : BitVec 6) (imm : BitVec 14) (s : State) : Res := intRK 2 c rd rs1 imm (· &&& ·) s
def execOrI (c : Nat) (rd rs1 : BitVec 6) (imm : BitVec 14) (s : State) : Res := intRK 3 c rd rs1 imm (· ||| ·) s
def execXorI (c : Nat) (rd rs1 : BitVec 6) (imm : BitVec 14) (s : State) : Res := intRK 4 c rd rs1 imm (· ^^^ ·) s
def execSetltI (c : Nat) (rd rs1 : BitVec 6) (imm : BitVec 14) (s : State) : Res := intRK 6 c rd rs1 imm slt s
def execSetltuI (c : Nat) (rd rs1 : BitVec 6) (imm : BitVec 14) (s : State) : Res := intRK 7 c rd rs1 imm sltu s

/-- A shift by imm[5:0]; imm[11:6] must be 0 (Table 04-14, major 0x05). -/
def intShI (sel c : Nat) (rd rs1 : BitVec 6) (imm : BitVec 12) (f : W64 → W64 → W64) (s : State) : Res :=
  issue c (wRKs 5 rd rs1 sel imm) [rd, rs1] []
    (fun k s =>
      if imm.toNat ≥ 64 then s.illegal c (wRKs 5 rd rs1 sel imm)
      else s.retire c (k.setInt rd (f (k.int rs1) (imm.setWidth 64)))) s

def execShllI (c : Nat) (rd rs1 : BitVec 6) (imm : BitVec 12) (s : State) : Res := intShI 0 c rd rs1 imm shl64 s
def execShrlI (c : Nat) (rd rs1 : BitVec 6) (imm : BitVec 12) (s : State) : Res := intShI 1 c rd rs1 imm shr64 s
def execShraI (c : Nat) (rd rs1 : BitVec 6) (imm : BitVec 12) (s : State) : Res := intShI 2 c rd rs1 imm sra64 s

/-- imm20 << 12, sign-extended to 64 bits (R91, Table 04-4). -/
def hiValue (imm : BitVec 20) : W64 := (imm ++ 0#12).signExtend 64

def execLdhi (c : Nat) (rd : BitVec 6) (imm : BitVec 20) (s : State) : Res :=
  issue c (wHI 8 rd imm) [rd] [] (fun k s => s.retire c (k.setInt rd (hiValue imm))) s
def execPchi (c : Nat) (rd : BitVec 6) (imm : BitVec 20) (s : State) : Res :=
  issue c (wHI 0x38 rd imm) [rd] [] (fun k s => s.retire c (k.setInt rd (k.pc + hiValue imm))) s

def execMul (c : Nat) (w : Bool) (rd rs1 rs2 : BitVec 6) (s : State) : Res :=
  intRR 9 0 c w rd rs1 rs2 (· * ·) (· * ·) s
def execMulhs (c : Nat) (w : Bool) (rd rs1 rs2 : BitVec 6) (s : State) : Res :=
  intRR 9 1 c w rd rs1 rs2 mulhs mulhs s
def execMulhu (c : Nat) (w : Bool) (rd rs1 rs2 : BitVec 6) (s : State) : Res :=
  intRR 9 2 c w rd rs1 rs2 mulhu mulhu s

/-- Is the divisor of a division zero, in the form's width? -/
def divZero (w : Bool) (b : W64) : Bool := if w then b.setWidth 32 == 0#32 else b == 0#64

/-- A division: a zero divisor raises INT_DIVIDE_BY_ZERO and writes nothing (R93). -/
def intDiv (fn c : Nat) (w : Bool) (rd rs1 rs2 : BitVec 6) (f : W64 → W64 → W64) (g : W32 → W32 → W32)
    (s : State) : Res :=
  issue c (wRR 9 rd rs1 rs2 (fn + 64 * boolNat w)) [rd, rs1, rs2] []
    (fun k s =>
      if divZero w (k.int rs2) then s.trap c 7 0
      else s.retire c (k.setInt rd (rrValue w f g (k.int rs1) (k.int rs2)))) s

def execDivs (c : Nat) (w : Bool) (rd rs1 rs2 : BitVec 6) (s : State) : Res :=
  intDiv 3 c w rd rs1 rs2 BitVec.sdiv BitVec.sdiv s
def execDivu (c : Nat) (w : Bool) (rd rs1 rs2 : BitVec 6) (s : State) : Res :=
  intDiv 4 c w rd rs1 rs2 (· / ·) (· / ·) s
def execMods (c : Nat) (w : Bool) (rd rs1 rs2 : BitVec 6) (s : State) : Res :=
  intDiv 5 c w rd rs1 rs2 BitVec.srem BitVec.srem s
def execModu (c : Nat) (w : Bool) (rd rs1 rs2 : BitVec 6) (s : State) : Res :=
  intDiv 6 c w rd rs1 rs2 (· % ·) (· % ·) s

end Sys2Proof.Machine
end

