-- ==== Sys2Proof/Machine/Mesh.lean ====
section
/-!
DEFINITION. The on-die network: injection, router outputs, ageing, credits, ejection, priority levels and seam links
(R309 to R326).
-/

namespace Sys2Proof.Machine

/-! ## Packets on the mesh -/

/-- Virtual channel of a packet (R311). -/
def Packet.vc (p : Packet) : Nat := 2 * p.cls + p.level / 2

/-- Effective level (R318). -/
def Packet.eff (p : Packet) : Nat := min 3 (p.level + p.aged)

/-- A competitor at an arbitration point: its place in the round-robin order and its packet. -/
abbrev Cand := Nat × Packet

/-- The winner: the highest effective level, then the first after the pointer `last` among `n` places (R318). -/
def pick (last n : Nat) (cs : List Cand) : Option Cand :=
  let dist := fun (c : Cand) => (c.1 + n - last % n - 1) % n
  cs.foldl (fun m c =>
    match m with
    | none => some c
    | some w =>
      if w.2.eff < c.2.eff || (w.2.eff == c.2.eff && dist c < dist w) then some c else m) none

/-- Does the partition rectangle of a network interface hold block `d` (Table 13-7)? -/
def inRect (r : W32) (d : Nat) : Bool :=
  let n := r.toNat
  r.getLsbD 31 && bits n 16 5 ≤ bxOf d && bxOf d ≤ bits n 24 5 && bits n 0 4 ≤ byOf d && byOf d ≤ bits n 8 4

/-- Output port of router `b` towards block `d`: along the row, then along the column (R314). -/
def route (b d : Nat) : Nat :=
  if bxOf b < bxOf d then 1 else if bxOf d < bxOf b then 3 else if byOf b < byOf d then 2 else if byOf d < byOf b then 0 else 4

/-- The router behind an output port, if the die has one there. -/
def neighbour (b port : Nat) : Option Nat :=
  if port = 0 then (if byOf b = 0 then none else some (b - 20))
  else if port = 1 then (if bxOf b = 19 then none else some (b + 1))
  else if port = 2 then (if byOf b = 15 then none else some (b + 20))
  else if port = 3 then (if bxOf b = 0 then none else some (b - 1))
  else none

/-- The input port at which a flit arrives that left by an output port. -/
def opposite (port : Nat) : Nat := (port + 2) % 4

/-- Does a hop cross the seam (R309)? -/
def isSeam (b d : Nat) : Bool := (byOf b == 7 && byOf d == 8) || (byOf b == 8 && byOf d == 7)

/-- Flits of a list of packets. -/
def flits (ps : List Packet) : Nat := ps.foldl (fun n p => n + p.nfl + 1) 0

/-! ## Injection (R315 to R319) -/

/-- Queue of a waiting packet at the network interface: its requester port (SPORT codes of Table 13-2; R318, R321). -/
def Packet.niKey (p : Packet) : Nat := p.sport

/-- The heads of the network interface's queues. -/
def niHeads : List Nat → List Packet → List Cand
  | _, [] => []
  | seen, p :: ps => if p.niKey ∈ seen then niHeads seen ps else (p.niKey, p) :: niHeads (p.niKey :: seen) ps

/-- Room in the local input buffer of a router for a packet (R313). -/
def Block.localRoom (k : Block) (p : Packet) : Bool := flits (lget [] k.bufs (24 + p.vc)) + p.nfl + 1 ≤ 6

/-- A packet that is never injected: its requester gets STATUS refused (R315). A host signal is answered DENIED
(notes/assumptions/83.md). -/
def State.refuseInjection (s : State) (b : Nat) (p : Packet) : State :=
  let s := s.logBlk b 0x42 [p.dst, p.sport]
  match p.pay with
  | .acc a => s.deliver b { sport := a.sport, tag := a.tag, status := 6 }
  | .watch w _ => s.modBlk b (fun k => { k with wakes := k.wakes ++ [(w, true)] })
  | .withdraw w => s.modBlk b (fun k => { k with wdAcks := k.wdAcks ++ [w.cid] })
  | .portCmd _ c => s.deliver b { sport := c.sport, tag := c.tag, status := 6 }
  | .doorbell _ d => s.bellAnswer b d 6
  | .signal x => s.sigRefuse b x stDenied
  | _ => s

/-- The requester of an injected packet goes on: a cobble's load, store or FE request has issued (R316, R321). -/
def State.injected (s : State) (b : Nat) (p : Packet) : State :=
  match p.pay with
  | .acc _ => if p.sport < 256 then s.modCob (b * 256 + p.sport) Cobble.admitted else s
  | _ => s

/-- PACKET_INJECTION: the network interface admits its best waiting packet into the router, or refuses it. -/
def execPacketInjection (b : Nat) (s : State) : Res :=
  onBlk b s fun s =>
    let k := s.blk b
    let cs := (niHeads [] k.niq).filter (fun c => !inRect k.partrect c.2.dst || k.localRoom c.2)
    match pick k.niLast 262 cs with
    | none => s
    | some (key, p) =>
      let s := (s.setBlk b { k with niq := k.niq.erase p, niLast := key }).injected b p
      if inRect k.partrect p.dst then
        s.modBlk b (fun q => { q with
          bufs := lset q.bufs (24 + p.vc) (lget [] q.bufs (24 + p.vc) ++ [{ p with aged := 0 }]) })
      else s.refuseInjection b p

/-- The level of a packet that its requester takes from NOCPRI (Table 13-4); none for another requester. -/
def priLevel (v : Nat) (sport : Nat) : Option Nat :=
  if sport < 256 then some (bits v 6 2) else if sport = 258 then some (bits v 4 2)
  else if sport = 259 then some (bits v 2 2) else if sport = 261 then some (bits v 0 2) else none

def Packet.relevel (v : Nat) (p : Packet) : Packet :=
  match priLevel v p.sport with
  | none => p
  | some l => { p with level := l, pay := match p.pay with
      | .acc a => .acc { a with level := l }
      | x => x }

/-- NOCPRI_WRITE: the levels change; packets still waiting compete with the new ones (R319). -/
def execNocpriWrite (b : Nat) (s : State) : Res :=
  onBlk b s fun s =>
    match s.popCtl b (fun a => a.writes 0x104) with
    | none => s
    | some (a, s) =>
      (s.modBlk b (fun k => { k with nocpri := b32 (a.val % 256), niq := k.niq.map (Packet.relevel (a.val % 256)) })).reply b a 0 []

/-! ## Router outputs (R313, R318, R322 to R324) -/

/-- Room behind an output of router `b` for a packet: at ejection a waiting request holds the next one, never a response or
a sync/control packet (R312). -/
def State.outRoom (s : State) (b port : Nat) (p : Packet) : Bool :=
  let k := s.blk b
  if port = 4 then p.cls != 0 || (lget [] k.ejq p.vc).isEmpty
  else match neighbour b port with
    | none => false
    | some d =>
      lget 0 k.credits (port * 6 + p.vc) + p.nfl + 1 ≤ (if isSeam b d then 12 else 6)
        && !(isSeam b d && (s.blk d).seamFailed)

/-- The head packets that compete for an output. -/
def State.heads (s : State) (b port : Nat) : List Cand :=
  (s.blk b).bufs.filterMap (fun e =>
    match e.2 with
    | [] => none
    | p :: _ => if route b p.dst = port && s.outRoom b port p then some (e.1, p) else none)

/-- Groups whose parity mismatches as a packet crosses a seam link: bit 16 f + g is group g of flit f; none is seen in a
group whose spare has the replacement role (R322). -/
def seamErr (k : Block) (p : Packet) (err : BitVec 80) : Nat :=
  (List.range (16 * (p.nfl + 1))).foldl (fun n i => n + (if err.getLsbD i && !k.seamRepl.getLsbD (i % 16) then 2 ^ i else 0)) 0

def popcount (n : Nat) : Nat := (List.range 80).foldl (fun c i => c + boolNat (bit n i)) 0

/-- A packet reaches router `d` at input `inp`, with the parity mismatches of `err`: each counts in PARERR, a bad header
discards the packet, a bad data flit poisons it (R324). -/
def State.seamArrive (s : State) (d inp err : Nat) (p : Packet) : State :=
  let k := s.blk d
  let old := k.seamParerr
  let new := BitVec.ofNat 15 (min 0x7FFF (old.toNat + popcount err))
  let s := (s.setBlk d { k with seamParerr := new }).satLog 2 d 2 old new
  let key := inp * 6 + p.vc
  if err % 2 ^ 16 != 0 then
    (s.modBlk d (fun k => { k with owed := lset k.owed key (lget 0 k.owed key + p.nfl + 1) })).logBlk d 0x23 [1, 0, 0]
  else
    s.modBlk d (fun k => { k with bufs := lset k.bufs key (lget [] k.bufs key ++ [{ p with poison := p.poison || err != 0 }]) })

/-- ROUTER_GRANT: an output of router `b` grants a header, and its packet moves on. `err` names the groups whose parity
mismatches if the hop crosses the seam, 16 to a flit. -/
def execRouterGrant (b port5 : Nat) (err : BitVec 80) (s : State) : Res :=
  onBlk b s fun s =>
    let k := s.blk b
    match pick (lget 29 k.outLast port5) 30 (s.heads b port5) with
    | none => s
    | some (key, p) =>
      let n := p.nfl + 1
      let k := { k with
        bufs := cset [] k.bufs key ((lget [] k.bufs key).drop 1),
        outLast := lset k.outLast port5 key,
        owed := if key < 24 then lset k.owed key (lget 0 k.owed key + n) else k.owed }
      let p := { p with aged := 0 }
      if port5 = 4 then s.setBlk b { k with ejq := lset k.ejq p.vc (lget [] k.ejq p.vc ++ [p]) }
      else match neighbour b port5 with
        | none => s
        | some d =>
          let ck := port5 * 6 + p.vc
          let s := s.setBlk b { k with credits := lset k.credits ck (lget 0 k.credits ck + n) }
          s.seamArrive d (opposite port5) (if isSeam b d then seamErr (s.blk d) p err else 0) p

/-- PRIORITY_AGEING: 64 steps at the head of its queue raise a packet's effective level. `point` 0 to 4 names an input port
of the router and `n` its virtual channel; 5 names the network interface and `n` its requester port. -/
def execPriorityAgeing (b point n : Nat) (s : State) : Res :=
  onBlk b s fun s =>
    let k := s.blk b
    if point < 5 then
      match lget [] k.bufs (point * 6 + n % 6) with
      | [] => s
      | p :: ps => s.setBlk b { k with bufs := lset k.bufs (point * 6 + n % 6) ({ p with aged := p.aged + 1 } :: ps) }
    else
      match k.niq.find? (fun p => p.niKey = n) with
      | none => s
      | some p => s.setBlk b { k with niq := k.niq.replace p { p with aged := p.aged + 1 } }

/-- CREDIT_RETURN: the credit of one freed flit reaches the upstream router `b` (R313). -/
def execCreditReturn (b port5 vc : Nat) (s : State) : Res :=
  onBlk b s fun s =>
    match neighbour b port5 with
    | none => s
    | some d =>
      let dk := opposite port5 * 6 + vc
      let ck := port5 * 6 + vc
      if lget 0 (s.blk d).owed dk = 0 then s
      else
        (s.modBlk d (fun k => { k with owed := cset 0 k.owed dk (lget 0 k.owed dk - 1) })).modBlk b
          (fun k => { k with credits := cset 0 k.credits ck (lget 0 k.credits ck - 1) })

/-! ## Ejection (R24, R283, R312, R320, R324) -/

/-- A packet is complete at its destination: an access joins the checks of R168, the sync unit or the control space, which
admits the OWN class only (R167); an answer reaches its requester; watches, wakes and doorbells their units. -/
def State.accept (s : State) (b : Nat) (p : Packet) : State :=
  let k := s.blk b
  let down := k.fence || k.rstFence
  match p.pay with
  | .acc a =>
    let a := { a with poison := a.poison || (p.poison && a.kind == .wr) }
    if down then s.reply b a 1 []
    else if a.space ≤ 1 then s.setBlk b { k with remoteIn := k.remoteIn ++ [a] }
    else if a.space = 2 then s.arrive b a
    else if a.sclass != 0 || a.tenant != s.tenantOf b || (s.progRead b a.off).isNone then s.violation b a
    else s.arrive b a
  | .ans a => s.deliver b { a with status := if p.poison && a.status == 0 then 4 else a.status }
  | .watch w t => s.setBlk b { k with watchIn := k.watchIn ++ [(w, true, t)] }
  | .withdraw w =>
    let s := s.setBlk b { k with
      watchIn := k.watchIn.filter (fun e => e.1 != w || !e.2.1), rwatch := k.rwatch.filter (· != w) }
    s.ni b { cls := 2, level := 3, nfl := 0, dst := blkOf w.cid, src := b, sport := 260, pay := .withdrawn w }
  | .wake w r => s.setBlk b { k with wakes := k.wakes ++ [(w, r)] }
  | .withdrawn w => s.setBlk b { k with wdAcks := insertNat w.cid k.wdAcks }
  | .doorbell port d => s.setBlk b { k with bellIn := k.bellIn ++ [(port, d)] }
  | .portCmd port c =>
    if down then s.portReply port c ansFenced []
    else s.setBlk b { k with portIn := k.portIn ++ [(port, { c with poison := c.poison || p.poison })] }
  | .signal x => s.sigArrive b x
  | .sigAns x st v t => s.sendMsg x.port 1 (sigReply x.msg st v t)

/-- Does a stream port hold further requests at the network interface: every tag in use or promised to one admitted (R287)? -/
def State.portFull (s : State) (b port : Nat) : Bool :=
  let q := s.port port
  256 ≤ q.tags.length + q.gone.length + ((s.blk b).portIn.filter (fun e => e.1 == port)).length

/-- Must a request wait at ejection: an earlier one is not admitted, or its stream port holds (R287, R312)? -/
def State.ejectHolds (s : State) (b : Nat) (p : Packet) : Bool :=
  p.cls == 0 && (!(s.blk b).remoteIn.isEmpty || match p.pay with
    | .portCmd port _ => s.portFull b port
    | _ => false)

/-- PACKET_EJECTION: the tail of the oldest packet of a virtual channel reaches the network interface. A held request holds no
response and no sync/control packet (R312). -/
def execPacketEjection (b vc : Nat) (s : State) : Res :=
  onBlk b s fun s =>
    let k := s.blk b
    match lget [] k.ejq vc with
    | [] => s
    | p :: rest =>
      if s.ejectHolds b p then s
      else (s.setBlk b { k with ejq := cset [] k.ejq vc rest }).accept b p

end Sys2Proof.Machine
end

