-- ==== Sys2Proof/Machine/Seam.lean ====
section
/-!
DEFINITION. The seam links in service (R323, R325).
-/

namespace Sys2Proof.Machine

/-- A received seam direction fails: no further flit (R325). -/
def State.seamFail (s : State) (b g w : Nat) : State :=
  if (s.blk b).seamFailed then s
  else (s.modBlk b (fun k => { k with seamFailed := true })).logBlk b 0x23 [2, g, w]

/-- Wire `w` of group `g` (32: the spare) has failed. -/
def State.seamWire (s : State) (b g w : Nat) : State :=
  let k := s.blk b
  if bit k.seamRepl.toNat g || k.seamNext.any (fun e => e.1 == g) then s.seamFail b g w
  else s.setBlk b { k with seamNext := k.seamNext ++ [(g, w)] }

/-- The spares that are due take the replacement role. -/
def State.seamReplace (s : State) (b : Nat) : State :=
  let k := s.blk b
  let s := s.setBlk b { k with
    seamNext := [],
    seamRepl := k.seamNext.foldl (fun r e => r ||| BitVec.ofNat 16 (2 ^ e.1)) k.seamRepl,
    seamMap := k.seamNext.foldl (fun t e => lset t e.1 (BitVec.ofNat 8 (128 + e.2 % 32))) k.seamMap }
  k.seamNext.foldl (fun s e => s.logBlk b 0x23 [0, e.1, e.2]) s

/-- Every partition that spans both halves and includes a failed direction's column is fenced and reset. -/
def State.seamReset (s : State) (b : Nat) : State :=
  ((List.range 10).filter (fun p => bits (s.partn p).pdef.toNat 29 2 == 3 && (s.partBlocks p).contains b && !(s.partn p).lost)).foldl
    State.escalate s

/-- SEAM_IDLE_TEST: one idle step of the seam direction that block `b` receives. Bit g × 33 + w of `bad`: wire w of group g
mismatches the test pattern; w = 32 is the spare. `ctl`: two of three copies of a control wire disagree. -/
def execSeamIdleTest (b : Nat) (bad : BitVec 528) (ctl : Bool) (s : State) : Res :=
  onBlk b s fun s =>
    if !seamRow b || (s.blk b).seamFailed then s
    else
      let s := s.seamReplace b
      let k := s.blk b
      let used := fun (i : Nat) => (lget 0 k.seamMap (i / 33)).toNat == 128 + i % 33
      let wires := (List.range 528).filter (fun i => bad.getLsbD i && !used i)
      let run := wires.map (fun i => (i, lget 0 k.seamRun i + 1))
      let c := if ctl then k.seamCtl + 1 else 0
      let s := s.setBlk b { k with seamRun := run, seamCtl := c }
      let s := (run.filter (fun e => e.2 == 3)).foldl (fun s e => s.seamWire b (e.1 / 33) (e.1 % 33)) s
      let s := if 3 ≤ c then s.seamFail b 16 0 else s
      if (s.blk b).seamFailed then s.seamReset b else s

end Sys2Proof.Machine
end

