-- ==== Sys2Proof/Machine/TestDebug.lean ====
section
/-!
DEFINITION. The test port, fuse programming, and self-test in service (R13, R408, R431, R503 to R508, R510 to R515; Tables 22-1
and 22-2).
-/

namespace Sys2Proof.Machine

/-! ## The test port (R503 to R505, Table 22-1) -/

/-- Instruction codes. -/
def tapBypass : Nat := 0xFF
def tapIdcode : Nat := 0x01
def tapSample : Nat := 0x02
def tapExtest : Nat := 0x03
def tapWrapper : Nat := 0x10
def tap1687 : Nat := 0x20

/-- Is SHIP programmed? -/
def State.shipped (s : State) : Bool := s.fuse 11 0 != 0

/-- Is an instruction in force? `seg` is the segment of a 1687 access: 0 BIST, 1 link test, 2 any other. -/
def State.tapOn (s : State) (code seg : Nat) : Bool :=
  if code = tapIdcode || code = tapSample then true
  else if code = tapExtest || code = tapWrapper then s.aon.testmode
  else if code = tap1687 then s.aon.testmode && (!s.shipped || seg < 2)
  else false

/-- Bits of a number, the lowest first. -/
def bitList (n v : Nat) : List Bool := (List.range n).map (bit v)

/-- One scan: the instruction is loaded, its data register captures, `tdi` is shifted in and TDO carries what falls out. -/
def State.scan (s : State) (ir : Nat) (cap tdi : List Bool) : State :=
  let all := cap ++ tdi
  s.modAon (fun a => { a with tapIr := BitVec.ofNat 8 ir, tapOut := all.take tdi.length, tapDr := all.drop tdi.length })

/-- BYPASS: one bit that captures 0. -/
def execBypass (tdi : List Bool) (s : State) : Res := .next (s.scan tapBypass [false] tdi)

/-- IDCODE: 0x1C81_06B7. -/
def execIdcode (tdi : List Bool) (s : State) : Res := .next (s.scan tapIdcode (bitList 32 0x1C8106B7) tdi)

/-- Captured bits whose content the spec does not give: free values. -/
def State.drawBits (s : State) : Nat → List Bool × State
  | 0 => ([], s)
  | n + 1 =>
    let (v, t) := s.draw
    let (l, u) := t.drawBits n
    (v.getLsbD 0 :: l, u)

/-- A scan through a register whose length and content the spec does not give: what falls out is free; `tdi` stays in it. -/
def State.freeScan (s : State) (ir : Nat) (tdi : List Bool) : State :=
  let (l, s) := s.drawBits tdi.length
  s.scan ir l tdi

/-- An instruction that is not in force acts as BYPASS (R504). -/
def tapRow (code seg : Nat) (tdi : List Bool) (f : State → State) (s : State) : Res :=
  .next (if s.tapOn code seg then f s else s.scan tapBypass [false] tdi)

/-- SAMPLE_PRELOAD: the boundary register is loaded. -/
def execSamplePreload (tdi : List Bool) (s : State) : Res :=
  tapRow tapSample 0 tdi (fun s => (s.freeScan tapSample tdi).modAon (fun a => { a with bsr := tdi })) s

/-- EXTEST: the boundary register drives the bonds. -/
def execExtest (tdi : List Bool) (s : State) : Res :=
  tapRow tapExtest 0 tdi (fun s => (s.freeScan tapExtest tdi).modAon (fun a => { a with bsr := tdi })) s

/-- WRAPPER_INSTRUCTIONS of IEEE 1838. -/
def execWrapperInstructions (tdi : List Bool) (s : State) : Res :=
  tapRow tapWrapper 0 tdi (fun s => s.freeScan tapWrapper tdi) s

/-- NETWORK_ACCESS_1687 to a segment: 0 BIST, 1 link test, 2 any other. -/
def execNetworkAccess1687 (seg : Nat) (tdi : List Bool) (s : State) : Res :=
  tapRow tap1687 seg tdi (fun s => s.freeScan tap1687 tdi) s

/-! ## Fuses (R13, R408, R507, R508) -/

/-- FUSEPROG writes a field: `vfuse` says whether VFUSE lies in its programming range. The UDS (field 7) is generated on die. A
field that is programmed is written once. -/
def execFuseprog (field idx value : Nat) (vfuse : Bool) (s : State) : Res :=
  .next (
    let s := s.modAon (fun a => { a with vfuse := vfuse })
    let key := field * 65536 + idx
    if !(s.aon.testmode && !s.shipped && s.aon.bootph == 0#2 && vfuse) then s.modAon (fun a => { a with fuseFail := true })
    else if s.fuses.any (fun e => e.1 == key) then State.wrote (stLocked, s.lockViolate 0 0 0xFF key value 0xFFFF)
    else if field = 7 then
      let (v, s) := (List.range 6).foldl (fun (e : Nat × State) _ => let (x, t) := e.2.draw; (e.1 * 2 ^ 64 + x.toNat, t)) (0, s)
      { s with fuses := lset s.fuses key v }
    else { s with fuses := lset s.fuses key value })

/-! ## Self-test in service (R510 to R515) -/

/-- Is an island idle for self-test? -/
def State.idleIsl (s : State) (i : Nat) : Bool :=
  let k := s.isl i
  let p := s.partn k.part
  k.present && k.stRun.isNone && !k.ordered && !k.cleared &&
    (k.part == 0xFF || (!p.lost && !s.aon.acts.any (fun a => a.part == k.part) && (s.inProg k.part).isNone && (!p.isOpen || p.run != 1)))

def blksOf (i : Nat) : List Nat := (List.range nBlocks).filter (fun b => islOfBlk b == i)

/-- A test of an island begins: its blocks answer FENCED, a powered-down island comes up at OP0. -/
def State.testStart (s : State) (i set : Nat) : State :=
  let s := s.modIsl i (fun k => { k with stRun := some (set, 0), stBad := false, stQueued := 0, powered := true })
  let s := if (s.isl i).part = 0xFF then s.modIsl i (fun k => { k with grant := 0, cur := 0 }) else s
  (blksOf i).foldl State.fenceBlk s

/-- Segments of the selected sets (Table 22-2): MEM 3, LOGIC 10. -/
def segments (set : Nat) : Nat := 3 * boolNat (bit set 0) + 10 * boolNat (bit set 1)

/-- The clear at the end of a test, and the hand-over of the island. -/
def State.testClear (s : State) (i : Nat) : State :=
  let s := (s.clearIsl i).modIsl i (fun k => { k with stRun := none, cleared := false })
  let s := ((List.range 20).filter (fun k => slotIsl k == i)).foldl State.showMode s
  let s := (blksOf i).foldl State.liftBlk s
  if (s.isl i).part = 0xFF then s.modIsl i (fun k => { k with powered := false }) else s

/-- Does a command or a recovery action wait for the island (R456, R512)? -/
def State.wanted (s : State) (i : Nat) : Bool :=
  let p := (s.isl i).part
  p != 0xFF && (s.aon.acts.any (fun a => a.part == p && a.phase == 0) || ((s.inProg p).map (fun x => x.op == 0x22)).getD false)

/-- A defect found in service: the block is fenced for reset and stays so, the soft repair record takes the defect, and a
RECOVERY_END record with cause self-test is written (R431, R515). -/
def State.foundDefect (s : State) (e : Nat × Nat) : State :=
  let s := s.modAon (fun a => { a with
    repairs := if a.repairs.contains e then a.repairs else a.repairs ++ [e],
    nvSaved := a.nvSaved.map (fun r => { r with repairs := if r.repairs.contains e then r.repairs else r.repairs ++ [e] }) })
  ((s.hub 4 0 []).fenceBlk e.1).logEvent 2 e.1 0x12 (s.partOfBlk e.1) [0, 4, ActKind.block.code, e.1]

/-- SELFTEST_CHECKPOINT: a segment of island `i` ends with the defects (block; column, or 17 for the block) that it found. A test
that an action or a command waits for is discarded and scheduled again; one whose SELFTEST_RUN has been undone is dropped (R389,
R512). -/
def execSelftestCheckpoint (i : Nat) (defects : List (Nat × Nat)) (s : State) : Res :=
  onIsl i s fun s =>
    match (s.isl i).stRun with
    | none => s
    | some (set, n) =>
      if (s.isl i).brown then s
      else
        let mine := defects.filter (fun e => e.1 < nBlocks && islOfBlk e.1 == i)
        let s := mine.foldl State.foundDefect s
        let bad := (s.isl i).stBad || !mine.isEmpty
        if (s.isl i).stDrop then (s.modIsl i (fun k => { k with stRes := 3, stDrop := false })).testClear i
        else if s.wanted i && n + 1 < segments set then (s.modIsl i (fun k => { k with stRes := 3, stQueued := set })).testClear i
        else if n + 1 < segments set then s.modIsl i (fun k => { k with stRun := some (set, n + 1), stBad := bad })
        else (s.modIsl i (fun k => { k with stRes := boolNat bad, stLast := some s.ticks, stTime := s.pktime })).testClear i

/-- Does a test run? -/
def State.testRuns (s : State) : Bool := (List.range 10).any (fun i => (s.isl i).stRun.isSome)

/-- The idle island whose last complete test is oldest, and at least PERIOD hours old. -/
def State.scheduled (s : State) : Option Nat :=
  let per := s.aon.stctl.toNat % 65536
  let due := (List.range 10).filter (fun i => s.idleIsl i && match (s.isl i).stLast with
    | none => true
    | some t => decide (t + per * 360000000000 ≤ s.ticks))
  if per = 0 then none
  else due.foldl (fun m i =>
    match m with
    | none => some i
    | some x => if ((s.isl i).stLast.map (· + 1)).getD 0 < ((s.isl x).stLast.map (· + 1)).getD 0 then some i else m) none

/-- SELFTEST_SCHEDULE: with no test running, first an idle island whose test was put off, then the schedule's, with both sets. -/
def execSelftestSchedule (s : State) : Res :=
  .next (
    if !s.fwUp || s.testRuns then s
    else match (List.range 10).find? (fun i => (s.isl i).stQueued != 0 && s.idleIsl i) with
      | some i => s.testStart i (s.isl i).stQueued
      | none => match s.scheduled with
        | some i => s.testStart i 3
        | none => s)

/-- A result byte of R514; 5 marks a selected island whose test has not begun. -/
def Island.resByte (k : Island) : Byte := if k.stRes = 5 then 2#8 else BitVec.ofNat 8 k.stRes

/-- SELFTEST_RUN: the selected idle islands are tested one at a time, the others put off; then the reply. -/
def execSelftestRun (s : State) : Res :=
  fwCmdWait 0x80 10 s fun i s =>
    let isl := i.fld 32 2
    let set := i.fld 34 2
    let sel := (List.range 10).filter (bit isl)
    if 1024 ≤ isl || 4 ≤ set then (some { status := stBadParam }, s)
    else if !i.going then
      let s := sel.foldl (fun s n => s.modIsl n (fun k =>
        if s.idleIsl n && set != 0 then { k with stRes := 5 } else { k with stRes := if set = 0 then k.stRes else 2, stQueued := set })) s
      (none, s.setQueue 10 ((s.queue 10).map (fun x => if x.seq = i.seq then { x with going := true } else x)))
    else if s.testRuns then (none, s)
    else match sel.find? (fun n => (s.isl n).stRes == 5) with
      | some n =>
        if s.idleIsl n then (none, (s.modIsl n (fun k => { k with stRes := 0 })).testStart n set)
        else (none, s.modIsl n (fun k => { k with stRes := 2, stQueued := set }))
      | none =>
        (some { status := if sel.any (fun n => (s.isl n).stRes == 2) then stDeferred else stOk,
                data := (List.range 10).map (fun n => if bit isl n then (s.isl n).resByte else 4#8) }, s)

/-- SELFTEST_STATUS: the result bytes, then the package time of each island's last complete test. -/
def execSelftestStatus (s : State) : Res :=
  fwM 0x81 s fun _ s =>
    dataR ((List.range 10).map (fun n => (s.isl n).resByte) ++ (List.range 10).flatMap (fun n => toBytes 8 (s.isl n).stTime.toNat)) s

end Sys2Proof.Machine
end

