-- ==== Sys2Proof/Machine/TileOps.lean ====
section
/-!
DEFINITION. Block-scaled conversions, SPLIT3, reductions and scans of the piazza vector engine (R269 to R271, R274 to
R276).
-/

namespace Sys2Proof.Machine

/-! ## Block-scaled conversion (R69, R70, R269, R270) -/

def wCvtb (sel : Nat) (td ts tsc : BitVec 5) (wide : BitVec 3) (narrow : BitVec 2) (auto amx : Bool) (idx : BitVec 2) : W32 :=
  wPz 0x32 (td ++ ts ++ tsc ++ wide ++ narrow ++ BitVec.ofBool auto ++ BitVec.ofBool amx ++ idx ++ BitVec.ofNat 2 sel)

/-- The narrow type of a 2-bit code: V8, G8, Q4. -/
def narrowTy (n : BitVec 2) : BitVec 3 := 4#3 + n.zeroExtend 3

/-- Ratio r of a wide and a narrow type. -/
def cvtbR (wide : BitVec 3) (n : BitVec 2) : Nat := tyN (narrowTy n) / tyN wide

/-- The checks shared by both directions: types, VLC, the r-tile group from `grp`, the scale tile. -/
def cvtbOk (p : Slot) (wide : BitVec 3) (n : BitVec 2) (grp single tsc : BitVec 5) : Bool :=
  let r := cvtbR wide n
  (wide == 1 || wide == 2 || wide == 3) && n != 3 && p.vlc % 32 == 0 && grp.toNat + r ≤ 32
    && !(grp.toNat ≤ tsc.toNat && tsc.toNat < grp.toNat + r) && tsc != single

/-- The wide tile and its column that pair with narrow column c (R267). -/
def widePart (wide : BitVec 3) (n : BitVec 2) (c : Nat) : Nat × Nat :=
  let nn := tyN (narrowTy n)
  let nw := tyN wide
  (c % nn / nw, c / nn * nw + c % nn % nw)

/-- The source elements of group g of row y: those that become active. -/
def State.group (s : State) (sl ts : Nat) (p : Slot) (wide : BitVec 3) (n : BitVec 2) (y g : Nat) : List Fp.FVal :=
  (List.range 32).filterMap (fun i =>
    let c := 32 * g + i
    if p.live (narrowTy n) y c then
      let (q, col) := widePart wide n c
      some (Fp.decode (tyFmt wide) (s.tel sl (ts + q) wide y col))
    else none)

/-- The tiles of a group, as far as they exist. -/
def tileGrp (t : BitVec 5) (r : Nat) : List Nat := ((List.range r).map (t.toNat + ·)).filter (· < 32)

/-- TCVTBN: narrows r tiles into a block-scaled tile. -/
def execTcvtbn (c : Nat) (td ts tsc : BitVec 5) (wide : BitVec 3) (narrow : BitVec 2) (auto amx : Bool) (idx : BitVec 2)
    (s : State) : Res :=
  pzOp c (wCvtb 1 td ts tsc wide narrow auto amx idx) true [] []
    { tiles := tileGrp ts (cvtbR wide narrow) ++ (if auto then [] else [tsc.toNat]),
      outTiles := td.toNat :: (if auto then [tsc.toNat] else []), amax := if amx then [idx.toNat] else [] }
    (fun _ p => cvtbOk p wide narrow ts td tsc)
    (fun sl k p s =>
      let nt := narrowTy narrow
      let dst := tyFmt nt
      let src := tyFmt wide
      let scale := fun y g =>
        if auto then Fp.autoScale src dst k.ovf (s.group sl ts.toNat p wide narrow y g)
        else s.tel sl tsc.toNat 4 y g
      let elt := fun y q =>
        if p.live nt y q then
          let (t, col) := widePart wide narrow q
          let sc := scale y (q / 32)
          some (if sc = 0xFF then (dst.cnanCode, Fp.specialFlags dst (Fp.decode src (s.tel sl (ts.toNat + t) wide y col)))
            else Fp.put dst k.dir k.ovf ((Fp.decode src (s.tel sl (ts.toNat + t) wide y col)).scale (127 - (sc : Int)), 0))
        else none
      let s1 := s.tileWrite sl td.toNat nt (fun y q => (elt y q).map (·.1))
      let s2 := if auto then s1.tileWrite sl tsc.toNat 4 (fun y g =>
          if 32 * g < tyCols nt && (s.group sl ts.toNat p wide narrow y g) != [] then some (scale y g) else none)
        else s1
      let (fl, s3) := s2.laneFlags sl nt elt
      let s4 := if amx then s3.modSlot sl (fun q => q.amax idx.toNat
          ((List.range (64 * (tyCols nt / 32))).flatMap (fun i =>
            s.group sl ts.toNat p wide narrow (i / (tyCols nt / 32)) (i % (tyCols nt / 32)))))
        else s3
      s4.inFlight c 1 (pVec fl)) s

/-- TCVTBW: widens a block-scaled tile into r tiles; AUTO and AMX must be clear. -/
def execTcvtbw (c : Nat) (td ts tsc : BitVec 5) (wide : BitVec 3) (narrow : BitVec 2) (auto amx : Bool) (idx : BitVec 2)
    (s : State) : Res :=
  pzOp c (wCvtb 3 td ts tsc wide narrow auto amx idx) true [] []
    { tiles := [ts.toNat, tsc.toNat], outTiles := tileGrp td (cvtbR wide narrow) }
    (fun _ p => cvtbOk p wide narrow td ts tsc && !auto && !amx)
    (fun sl k p s =>
      let nt := narrowTy narrow
      let nn := tyN nt
      let nw := tyN wide
      let elt := fun t y q =>
        let col := q / nw * nn + t * nw + q % nw
        if p.live nt y col then
          let sc := s.tel sl tsc.toNat 4 y (col / 32)
          some (if sc = 0xFF then ((tyFmt wide).cnanCode, 0)
            else Fp.put (tyFmt wide) k.dir k.ovf ((Fp.decode (tyFmt nt) (s.tel sl ts.toNat nt y col)).scale ((sc : Int) - 127), 0))
        else none
      let (fl, s1) := (List.range (cvtbR wide narrow)).foldl (fun (r : Fp.Flags × State) t =>
        let s1 := r.2.tileWrite sl (td.toNat + t) wide (fun y q => (elt t y q).map (·.1))
        let (f, s2) := s1.laneFlags sl wide (elt t)
        (r.1 ||| f, s2)) ((0 : Fp.Flags), s)
      s1.inFlight c 1 (pVec fl)) s

/-- TSPLIT3 (R271): the pieces of every active element to Td, Td + 1, Td + 2. -/
def execTsplit3 (c : Nat) (td ts r1 : BitVec 5) (ty : BitVec 3) (part : Bool) (r2 : BitVec 5) (s : State) : Res :=
  pzOp c (wPz 0x32 (td ++ ts ++ r1 ++ ty ++ BitVec.ofBool part ++ r2 ++ 2#2)) true [] []
    { tiles := [ts.toNat], outTiles := tileGrp td 3 }
    (fun _ _ => r1 == 0 && r2 == 0 && td.toNat ≤ 29 && (ty == 1 || (ty == 0 && !part)))
    (fun sl _ p s =>
      let dt : BitVec 3 := if ty = 0 then 1 else 3
      let n := tyN dt
      let get := fun y q => Fp.split3 (tyFmt ty) (tyFmt dt) (s.tel sl ts.toNat ty y q)
      let wr := fun (t : State) (i : Nat) (f : Nat × Nat × Nat → Nat) =>
        t.tileWrite sl (td.toNat + i) dt (fun y q =>
          if q % n = (if part then 1 else 0) && p.live ty y (q / n) then some (f (get y (q / n)).1) else none)
      let s1 := wr (wr (wr s 0 (fun x => x.1)) 1 (fun x => x.2.1)) 2 (fun x => x.2.2)
      let (fl, s2) := s1.laneFlags sl ty (fun y q => if p.live ty y q then some (0, (get y q).2) else none)
      s2.inFlight c 1 (pVec fl)) s

/-! ## Reductions and scans (R274 to R276) -/

/-- The result type of a reduction: FP64, I32 or FP32. -/
def redTy (ty : BitVec 3) : BitVec 3 := if ty = 0 || ty = 7 then ty else 1

/-- A leaf in the result type: short formats convert exactly; AMAX takes magnitudes (R275). -/
def leaf (op : BitVec 2) (ty : BitVec 3) (x : Nat) : Nat × Fp.Flags :=
  if ty = 7 then (if op = 3 then i32Op 13 x 0 else x, 0)
  else
    let f := tyFmt (redTy ty)
    let y := if ty = redTy ty then (x, 0) else Fp.encode f .rne .ieee (Fp.decode (tyFmt ty) x)
    (if op = 3 then absBits f y.1 else y.1, y.2)

/-- One combine in the result type: 0 SUM, 1 MAX, 2 MIN, 3 AMAX. -/
def combine2 (op : BitVec 2) (rt : BitVec 3) (rm : Fp.RM) (a b : Nat) : Nat × Fp.Flags :=
  if rt = 7 then (i32Op (if op = 0 then 0 else if op = 2 then 6 else 7) a b, 0)
  else
    let f := tyFmt rt
    if op = 0 then Fp.add f rm a b else Fp.minMax f (op != 2) a b

/-- combine of R274: an absent leaf gives the other. -/
def combine (op : BitVec 2) (rt : BitVec 3) (rm : Fp.RM) (a b : Option (Nat × Fp.Flags)) : Option (Nat × Fp.Flags) :=
  match a, b with
  | none, b => b
  | a, none => a
  | some x, some y => let r := combine2 op rt rm x.1 y.1; some (r.1, x.2 ||| y.2 ||| r.2)

/-- One level of the tree. -/
def treeLevel (op : BitVec 2) (rt : BitVec 3) (rm : Fp.RM) : List (Option (Nat × Fp.Flags)) → List (Option (Nat × Fp.Flags))
  | a :: b :: rest => combine op rt rm a b :: treeLevel op rt rm rest
  | l => l

/-- The tree over a power of two of leaves, by its levels. -/
def tree (op : BitVec 2) (rt : BitVec 3) (rm : Fp.RM) : Nat → List (Option (Nat × Fp.Flags)) → Option (Nat × Fp.Flags)
  | 0, l => l.headD none
  | n + 1, l => tree op rt rm n (treeLevel op rt rm l)

def wRed (kind : Nat) (td ts tm : BitVec 5) (ty : BitVec 3) (op : BitVec 2) (seg excl r : Bool) : W32 :=
  wPz 0x34 (td ++ ts ++ tm ++ ty ++ op ++ BitVec.ofNat 3 kind ++ BitVec.ofBool seg ++ BitVec.ofBool excl ++ BitVec.ofBool r)

/-- The leaf of element (y, q) of Ts, absent when inactive. -/
def State.leafAt (s : State) (sl ts : Nat) (p : Slot) (op : BitVec 2) (ty : BitVec 3) (y q : Nat) : Option (Nat × Fp.Flags) :=
  if p.live ty y q then some (leaf op ty (s.tel sl ts ty y q)) else none

/-- Reads a computed result element and the flags of its combines. -/
def State.redWrite (s : State) (c sl td : Nat) (rt : BitVec 3) (g : List (Nat × Nat × Option (Nat × Fp.Flags))) : State :=
  let s1 := s.tileWrite sl td rt (fun y q => (g.findSome? (fun e => if e.1 = y && e.2.1 = q then e.2.2 else none)).map (·.1))
  let fl := g.foldl (fun f e => match e.2.2 with
    | some v => f ||| v.2
    | none => f) (0 : Fp.Flags)
  s1.inFlight c 2 (pVec fl)

/-- A row or column of leaves. -/
def State.rowLeaves (s : State) (sl ts : Nat) (p : Slot) (op : BitVec 2) (ty : BitVec 3) (y : Nat) :
    List (Option (Nat × Fp.Flags)) := (List.range (tyCols ty)).map (fun q => s.leafAt sl ts p op ty y q)
def State.colLeaves (s : State) (sl ts : Nat) (p : Slot) (op : BitVec 2) (ty : BitVec 3) (q : Nat) :
    List (Option (Nat × Fp.Flags)) := (List.range 64).map (fun y => s.leafAt sl ts p op ty y q)

/-- Types that column kinds and scans allow. -/
def wordTy (ty : BitVec 3) : Bool := ty == 0 || ty == 1 || ty == 7

/-- A reduction of kind 0, 1 or 2: SEG must be clear, EXCL only with SUM. -/
def reduce (kind c : Nat) (td ts tm : BitVec 5) (ty : BitVec 3) (op : BitVec 2) (seg excl r : Bool) (s : State) : Res :=
  pzOp c (wRed kind td ts tm ty op seg excl r) false [] [] { tiles := [ts.toNat], outTiles := [td.toNat] }
    (fun _ _ => !r && !seg && (!excl || op == 0) && (kind != 1 || wordTy ty))
    (fun sl k p s =>
      let rt := redTy ty
      let row := fun y => tree op rt k.dir 9 (s.rowLeaves sl ts.toNat p op ty y)
      let g := match kind with
        | 0 => (List.range 64).map (fun y => (y, 0, row y))
        | 1 => (List.range 64).map (fun q => (0, q, tree op rt k.dir 6 (s.colLeaves sl ts.toNat p op ty q)))
        | _ => [(0, 0, tree op rt k.dir 6 ((List.range 64).map row))]
      s.redWrite c sl td.toNat rt g) s

def execRowReduce (c : Nat) (td ts tm : BitVec 5) (ty : BitVec 3) (op : BitVec 2) (seg excl r : Bool) (s : State) : Res :=
  reduce 0 c td ts tm ty op seg excl r s
def execColumnReduce (c : Nat) (td ts tm : BitVec 5) (ty : BitVec 3) (op : BitVec 2) (seg excl r : Bool) (s : State) : Res :=
  reduce 1 c td ts tm ty op seg excl r s
def execFullTileReduce (c : Nat) (td ts tm : BitVec 5) (ty : BitVec 3) (op : BitVec 2) (seg excl r : Bool) (s : State) : Res :=
  reduce 2 c td ts tm ty op seg excl r s

/-- The leaves that a scan keeps for position `q` of a line: from the nearest segment start at or before q, to q, or to
q − 1 with EXCL. -/
def scanLeaves (excl : Bool) (starts : Nat → Bool) (line : List (Option (Nat × Fp.Flags))) (q : Nat) :
    List (Option (Nat × Fp.Flags)) :=
  let lo := ((List.range (q + 1)).reverse.find? (fun i => i = 0 || starts i)).getD 0
  (List.range line.length).map (fun i =>
    if lo ≤ i && (i < q || (i = q && !excl)) then line.getD i none else none)

/-- A scan along rows (kind 3) or columns (kind 4). -/
def scan (kind c : Nat) (td ts tm : BitVec 5) (ty : BitVec 3) (op : BitVec 2) (seg excl r : Bool) (s : State) : Res :=
  pzOp c (wRed kind td ts tm ty op seg excl r) false [] []
    { tiles := ts.toNat :: (if seg then [tm.toNat] else []), outTiles := [td.toNat] }
    (fun _ _ => !r && (!excl || op == 0) && wordTy ty)
    (fun sl k p s =>
      let rt := redTy ty
      let one := fun (y q : Nat) =>
        let starts := fun i => seg && (if kind = 3 then s.tel sl tm.toNat ty y i else s.tel sl tm.toNat ty i q) != 0
        let line := if kind = 3 then s.rowLeaves sl ts.toNat p op ty y else s.colLeaves sl ts.toNat p op ty q
        (tree op rt k.dir 6 (scanLeaves excl starts line (if kind = 3 then q else y))).getD (0, 0)
      let g := (List.range 4096).filterMap (fun i =>
        if p.live ty (i / 64) (i % 64) then some (i / 64, i % 64, some (one (i / 64) (i % 64))) else none)
      s.redWrite c sl td.toNat rt g) s

def execRowScan (c : Nat) (td ts tm : BitVec 5) (ty : BitVec 3) (op : BitVec 2) (seg excl r : Bool) (s : State) : Res :=
  scan 3 c td ts tm ty op seg excl r s
def execColumnScan (c : Nat) (td ts tm : BitVec 5) (ty : BitVec 3) (op : BitVec 2) (seg excl r : Bool) (s : State) : Res :=
  scan 4 c td ts tm ty op seg excl r s

end Sys2Proof.Machine
end

