-- ==== Sys2Proof/Machine/Dispatch.lean ====
section
/-!
DEFINITION. What each command does: one arm per constructor, one call of its meaning.
-/

namespace Sys2Proof.Machine

def exec (i : Instr) (s : State) : Host.Outcome State Fault Refusal :=
  match i with
  | .add c w rd rs1 rs2 => Sys2Proof.Machine.execAdd c w rd rs1 rs2 s
  | .sub c w rd rs1 rs2 => Sys2Proof.Machine.execSub c w rd rs1 rs2 s
  | .and c w rd rs1 rs2 => Sys2Proof.Machine.execAnd c w rd rs1 rs2 s
  | .or c w rd rs1 rs2 => Sys2Proof.Machine.execOr c w rd rs1 rs2 s
  | .xor c w rd rs1 rs2 => Sys2Proof.Machine.execXor c w rd rs1 rs2 s
  | .shll c w rd rs1 rs2 => Sys2Proof.Machine.execShll c w rd rs1 rs2 s
  | .shrl c w rd rs1 rs2 => Sys2Proof.Machine.execShrl c w rd rs1 rs2 s
  | .shra c w rd rs1 rs2 => Sys2Proof.Machine.execShra c w rd rs1 rs2 s
  | .setlt c w rd rs1 rs2 => Sys2Proof.Machine.execSetlt c w rd rs1 rs2 s
  | .setltu c w rd rs1 rs2 => Sys2Proof.Machine.execSetltu c w rd rs1 rs2 s
  | .min c w rd rs1 rs2 => Sys2Proof.Machine.execMin c w rd rs1 rs2 s
  | .max c w rd rs1 rs2 => Sys2Proof.Machine.execMax c w rd rs1 rs2 s
  | .minu c w rd rs1 rs2 => Sys2Proof.Machine.execMinu c w rd rs1 rs2 s
  | .maxu c w rd rs1 rs2 => Sys2Proof.Machine.execMaxu c w rd rs1 rs2 s
  | .addI c rd rs1 imm => Sys2Proof.Machine.execAddI c rd rs1 imm s
  | .andI c rd rs1 imm => Sys2Proof.Machine.execAndI c rd rs1 imm s
  | .orI c rd rs1 imm => Sys2Proof.Machine.execOrI c rd rs1 imm s
  | .xorI c rd rs1 imm => Sys2Proof.Machine.execXorI c rd rs1 imm s
  | .shllI c rd rs1 imm => Sys2Proof.Machine.execShllI c rd rs1 imm s
  | .shrlI c rd rs1 imm => Sys2Proof.Machine.execShrlI c rd rs1 imm s
  | .shraI c rd rs1 imm => Sys2Proof.Machine.execShraI c rd rs1 imm s
  | .setltI c rd rs1 imm => Sys2Proof.Machine.execSetltI c rd rs1 imm s
  | .setltuI c rd rs1 imm => Sys2Proof.Machine.execSetltuI c rd rs1 imm s
  | .ldhi c rd imm => Sys2Proof.Machine.execLdhi c rd imm s
  | .pchi c rd imm => Sys2Proof.Machine.execPchi c rd imm s
  | .mul c w rd rs1 rs2 => Sys2Proof.Machine.execMul c w rd rs1 rs2 s
  | .mulhs c w rd rs1 rs2 => Sys2Proof.Machine.execMulhs c w rd rs1 rs2 s
  | .mulhu c w rd rs1 rs2 => Sys2Proof.Machine.execMulhu c w rd rs1 rs2 s
  | .divs c w rd rs1 rs2 => Sys2Proof.Machine.execDivs c w rd rs1 rs2 s
  | .divu c w rd rs1 rs2 => Sys2Proof.Machine.execDivu c w rd rs1 rs2 s
  | .mods c w rd rs1 rs2 => Sys2Proof.Machine.execMods c w rd rs1 rs2 s
  | .modu c w rd rs1 rs2 => Sys2Proof.Machine.execModu c w rd rs1 rs2 s
  | .ldB c rd rs1 imm => Sys2Proof.Machine.execLdB c rd rs1 imm s
  | .ldBu c rd rs1 imm => Sys2Proof.Machine.execLdBu c rd rs1 imm s
  | .ldH c rd rs1 imm => Sys2Proof.Machine.execLdH c rd rs1 imm s
  | .ldHu c rd rs1 imm => Sys2Proof.Machine.execLdHu c rd rs1 imm s
  | .ldW c rd rs1 imm => Sys2Proof.Machine.execLdW c rd rs1 imm s
  | .ldWu c rd rs1 imm => Sys2Proof.Machine.execLdWu c rd rs1 imm s
  | .ldD c rd rs1 imm => Sys2Proof.Machine.execLdD c rd rs1 imm s
  | .fldS c rd rs1 imm => Sys2Proof.Machine.execFldS c rd rs1 imm s
  | .fldD c rd rs1 imm => Sys2Proof.Machine.execFldD c rd rs1 imm s
  | .stB c rs2 rs1 imm => Sys2Proof.Machine.execStB c rs2 rs1 imm s
  | .stH c rs2 rs1 imm => Sys2Proof.Machine.execStH c rs2 rs1 imm s
  | .stW c rs2 rs1 imm => Sys2Proof.Machine.execStW c rs2 rs1 imm s
  | .stD c rs2 rs1 imm => Sys2Proof.Machine.execStD c rs2 rs1 imm s
  | .fstS c rs2 rs1 imm => Sys2Proof.Machine.execFstS c rs2 rs1 imm s
  | .fstD c rs2 rs1 imm => Sys2Proof.Machine.execFstD c rs2 rs1 imm s
  | .ldwf c rd rs1 imm => Sys2Proof.Machine.execLdwf c rd rs1 imm s
  | .lde c rd rs1 imm => Sys2Proof.Machine.execLde c rd rs1 imm s
  | .stwe c rs2 rs1 imm => Sys2Proof.Machine.execStwe c rs2 rs1 imm s
  | .stf c rs2 rs1 imm => Sys2Proof.Machine.execStf c rs2 rs1 imm s
  | .purge c rs2 rs1 imm => Sys2Proof.Machine.execPurge c rs2 rs1 imm s
  | .brEq c rs1 rs2 off => Sys2Proof.Machine.execBrEq c rs1 rs2 off s
  | .brNe c rs1 rs2 off => Sys2Proof.Machine.execBrNe c rs1 rs2 off s
  | .brLt c rs1 rs2 off => Sys2Proof.Machine.execBrLt c rs1 rs2 off s
  | .brGe c rs1 rs2 off => Sys2Proof.Machine.execBrGe c rs1 rs2 off s
  | .brLtu c rs1 rs2 off => Sys2Proof.Machine.execBrLtu c rs1 rs2 off s
  | .brGeu c rs1 rs2 off => Sys2Proof.Machine.execBrGeu c rs1 rs2 off s
  | .jlink c off => Sys2Proof.Machine.execJlink c off s
  | .jlinkr c rd rs1 imm => Sys2Proof.Machine.execJlinkr c rd rs1 imm s
  | .wcall c off => Sys2Proof.Machine.execWcall c off s
  | .wcallr c rd rs1 imm => Sys2Proof.Machine.execWcallr c rd rs1 imm s
  | .wret c fields => Sys2Proof.Machine.execWret c fields s
  | .crd c rd rs1 csr => Sys2Proof.Machine.execCrd c rd rs1 csr s
  | .cwr c rd rs1 csr => Sys2Proof.Machine.execCwr c rd rs1 csr s
  | .cset c rd rs1 csr => Sys2Proof.Machine.execCset c rd rs1 csr s
  | .cclr c rd rs1 csr => Sys2Proof.Machine.execCclr c rd rs1 csr s
  | .fence c rs1 imm => Sys2Proof.Machine.execFence c rs1 imm s
  | .phase c rs1 imm => Sys2Proof.Machine.execPhase c rs1 imm s
  | .wait c rs1 imm => Sys2Proof.Machine.execWait c rs1 imm s
  | .exit c rs1 imm => Sys2Proof.Machine.execExit c rs1 imm s
  | .trap c rs1 imm => Sys2Proof.Machine.execTrap c rs1 imm s
  | .brk c rs1 imm => Sys2Proof.Machine.execBrk c rs1 imm s
  | .hret c rs1 imm => Sys2Proof.Machine.execHret c rs1 imm s
  | .fadd c rd rs1 rs2 fmt => Sys2Proof.Machine.execFadd c rd rs1 rs2 fmt s
  | .fsub c rd rs1 rs2 fmt => Sys2Proof.Machine.execFsub c rd rs1 rs2 fmt s
  | .fmul c rd rs1 rs2 fmt => Sys2Proof.Machine.execFmul c rd rs1 rs2 fmt s
  | .fdiv c rd rs1 rs2 fmt => Sys2Proof.Machine.execFdiv c rd rs1 rs2 fmt s
  | .fsqrt c rd rs1 rs2 fmt => Sys2Proof.Machine.execFsqrt c rd rs1 rs2 fmt s
  | .fmin c rd rs1 rs2 fmt => Sys2Proof.Machine.execFmin c rd rs1 rs2 fmt s
  | .fmax c rd rs1 rs2 fmt => Sys2Proof.Machine.execFmax c rd rs1 rs2 fmt s
  | .fcmpEq c rd rs1 rs2 fmt => Sys2Proof.Machine.execFcmpEq c rd rs1 rs2 fmt s
  | .fcmpLt c rd rs1 rs2 fmt => Sys2Proof.Machine.execFcmpLt c rd rs1 rs2 fmt s
  | .fcmpLe c rd rs1 rs2 fmt => Sys2Proof.Machine.execFcmpLe c rd rs1 rs2 fmt s
  | .fkind c rd rs1 rs2 fmt => Sys2Proof.Machine.execFkind c rd rs1 rs2 fmt s
  | .fmov c rd rs1 rs2 fmt => Sys2Proof.Machine.execFmov c rd rs1 rs2 fmt s
  | .fcvtF c rd rs1 rs2 fmt => Sys2Proof.Machine.execFcvtF c rd rs1 rs2 fmt s
  | .fcvtFi c rd rs1 rs2 fmt => Sys2Proof.Machine.execFcvtFi c rd rs1 rs2 fmt s
  | .fcvtIf c rd rs1 rs2 fmt => Sys2Proof.Machine.execFcvtIf c rd rs1 rs2 fmt s
  | .frint c rd rs1 rs2 fmt => Sys2Proof.Machine.execFrint c rd rs1 rs2 fmt s
  | .fma c fd fs1 fs2 fs3 fmt => Sys2Proof.Machine.execFma c fd fs1 fs2 fs3 fmt s
  | .fms c fd fs1 fs2 fs3 fmt => Sys2Proof.Machine.execFms c fd fs1 fs2 fs3 fmt s
  | .fnma c fd fs1 fs2 fs3 fmt => Sys2Proof.Machine.execFnma c fd fs1 fs2 fs3 fmt s
  | .fnms c fd fs1 fs2 fs3 fmt => Sys2Proof.Machine.execFnms c fd fs1 fs2 fs3 fmt s
  | .vld c v rs1 imm => Sys2Proof.Machine.execVld c v rs1 imm s
  | .vst c v rs1 imm => Sys2Proof.Machine.execVst c v rs1 imm s
  | .vadd c vd vs1 vs2 vs3 ty fn => Sys2Proof.Machine.execVadd c vd vs1 vs2 vs3 ty fn s
  | .vsub c vd vs1 vs2 vs3 ty fn => Sys2Proof.Machine.execVsub c vd vs1 vs2 vs3 ty fn s
  | .vmul c vd vs1 vs2 vs3 ty fn => Sys2Proof.Machine.execVmul c vd vs1 vs2 vs3 ty fn s
  | .vfma c vd vs1 vs2 vs3 ty fn => Sys2Proof.Machine.execVfma c vd vs1 vs2 vs3 ty fn s
  | .vfms c vd vs1 vs2 vs3 ty fn => Sys2Proof.Machine.execVfms c vd vs1 vs2 vs3 ty fn s
  | .vfnma c vd vs1 vs2 vs3 ty fn => Sys2Proof.Machine.execVfnma c vd vs1 vs2 vs3 ty fn s
  | .vmin c vd vs1 vs2 vs3 ty fn => Sys2Proof.Machine.execVmin c vd vs1 vs2 vs3 ty fn s
  | .vmax c vd vs1 vs2 vs3 ty fn => Sys2Proof.Machine.execVmax c vd vs1 vs2 vs3 ty fn s
  | .vcmpeq c vd vs1 vs2 vs3 ty fn => Sys2Proof.Machine.execVcmpeq c vd vs1 vs2 vs3 ty fn s
  | .vcmplt c vd vs1 vs2 vs3 ty fn => Sys2Proof.Machine.execVcmplt c vd vs1 vs2 vs3 ty fn s
  | .vcmple c vd vs1 vs2 vs3 ty fn => Sys2Proof.Machine.execVcmple c vd vs1 vs2 vs3 ty fn s
  | .vsel c vd vs1 vs2 vs3 ty fn => Sys2Proof.Machine.execVsel c vd vs1 vs2 vs3 ty fn s
  | .vcvt c vd vs1 vs2 tyS ty fn => Sys2Proof.Machine.execVcvt c vd vs1 vs2 tyS ty fn s
  | .vcmul c vd vs1 vs2 vs3 ty conj hi => Sys2Proof.Machine.execVcmul c vd vs1 vs2 vs3 ty conj hi s
  | .vcfma c vd vs1 vs2 vs3 ty conj hi => Sys2Proof.Machine.execVcfma c vd vs1 vs2 vs3 ty conj hi s
  | .vsplit3 c vd vs1 vs2 vs3 ty fn => Sys2Proof.Machine.execVsplit3 c vd vs1 vs2 vs3 ty fn s
  | .vbcast c vd vs1 reg ty idx fn => Sys2Proof.Machine.execVbcast c vd vs1 reg ty idx fn s
  | .vext c vd vs1 reg ty idx fn => Sys2Proof.Machine.execVext c vd vs1 reg ty idx fn s
  | .vins c vd vs1 reg ty idx fn => Sys2Proof.Machine.execVins c vd vs1 reg ty idx fn s
  | .tld c va vb r1 r2 tyA tyB fn => Sys2Proof.Machine.execTld c va vb r1 r2 tyA tyB fn s
  | .tmac c va vb r1 r2 tyA tyB fn => Sys2Proof.Machine.execTmac c va vb r1 r2 tyA tyB fn s
  | .tst c va vb r1 r2 tyA tyB fn => Sys2Proof.Machine.execTst c va vb r1 r2 tyA tyB fn s
  | .pfence c fields => Sys2Proof.Machine.execPfence c fields s
  | .mma c rk ra rb tyA tyB acc64 zero => Sys2Proof.Machine.execMma c rk ra rb tyA tyB acc64 zero s
  | .mmas c rk ra rb tyA tyB sca scb zero res => Sys2Proof.Machine.execMmas c rk ra rb tyA tyB sca scb zero res s
  | .accz c r1 rs1 r2 => Sys2Proof.Machine.execAccz c r1 rs1 r2 s
  | .accld c r1 rs1 r2 => Sys2Proof.Machine.execAccld c r1 rs1 r2 s
  | .accst c r1 rs1 r2 => Sys2Proof.Machine.execAccst c r1 rs1 r2 s
  | .mmroww c rd rs1 rs2 w => Sys2Proof.Machine.execMmroww c rd rs1 rs2 w s
  | .mmcolw c rd rs1 rs2 w => Sys2Proof.Machine.execMmcolw c rd rs1 rs2 w s
  | .mmrowr c rd rs1 rs2 => Sys2Proof.Machine.execMmrowr c rd rs1 rs2 s
  | .mmcolr c rd rs1 rs2 => Sys2Proof.Machine.execMmcolr c rd rs1 rs2 s
  | .mscb c rd rs1 rs2 => Sys2Proof.Machine.execMscb c rd rs1 rs2 s
  | .vsetl c rd rs1 rs2 => Sys2Proof.Machine.execVsetl c rd rs1 rs2 s
  | .chld c slot rs1 rs2 => Sys2Proof.Machine.execChld c slot rs1 rs2 s
  | .tldp c t rs1 rs2 ty band cb => Sys2Proof.Machine.execTldp c t rs1 rs2 ty band cb s
  | .tstp c t rs1 rs2 ty band cb => Sys2Proof.Machine.execTstp c t rs1 rs2 ty band cb s
  | .tldl c t rs1 ix ti ty band cb => Sys2Proof.Machine.execTldl c t rs1 ix ti ty band cb s
  | .tstl c t rs1 ix ti ty band cb => Sys2Proof.Machine.execTstl c t rs1 ix ti ty band cb s
  | .top c td ta tb op ty bb r => Sys2Proof.Machine.execTop c td ta tb op ty bb r s
  | .chain c slot r => Sys2Proof.Machine.execChain c slot r s
  | .tcvtbn c td ts tsc wide narrow auto amx idx => Sys2Proof.Machine.execTcvtbn c td ts tsc wide narrow auto amx idx s
  | .tcvtbw c td ts tsc wide narrow auto amx idx => Sys2Proof.Machine.execTcvtbw c td ts tsc wide narrow auto amx idx s
  | .tsplit3 c td ts r1 ty part r2 => Sys2Proof.Machine.execTsplit3 c td ts r1 ty part r2 s
  | .tcmpr c td ts tm rd ty => Sys2Proof.Machine.execTcmpr c td ts tm rd ty s
  | .texpd c td ts tm rd ty => Sys2Proof.Machine.execTexpd c td ts tm rd ty s
  | .rowReduce c td ts tm ty op seg excl r => Sys2Proof.Machine.execRowReduce c td ts tm ty op seg excl r s
  | .columnReduce c td ts tm ty op seg excl r => Sys2Proof.Machine.execColumnReduce c td ts tm ty op seg excl r s
  | .fullTileReduce c td ts tm ty op seg excl r => Sys2Proof.Machine.execFullTileReduce c td ts tm ty op seg excl r s
  | .rowScan c td ts tm ty op seg excl r => Sys2Proof.Machine.execRowScan c td ts tm ty op seg excl r s
  | .columnScan c td ts tm ty op seg excl r => Sys2Proof.Machine.execColumnScan c td ts tm ty op seg excl r s
  | .tmvx c reg rs1 t ty f r => Sys2Proof.Machine.execTmvx c reg rs1 t ty f r s
  | .tmvi c reg rs1 t ty f r => Sys2Proof.Machine.execTmvi c reg rs1 t ty f r s
  | .tflg c reg rs1 t ty f r => Sys2Proof.Machine.execTflg c reg rs1 t ty f r s
  | .feTimeout c => Sys2Proof.Machine.execFeTimeout c s
  | .interruptEntry c => Sys2Proof.Machine.execInterruptEntry c s
  | .deferredTrap c => Sys2Proof.Machine.execDeferredTrap c s
  | .timerInterrupt c => Sys2Proof.Machine.execTimerInterrupt c s
  | .storeBufferWrite c => Sys2Proof.Machine.execStoreBufferWrite c s
  | .blockStoreBankService b bank => Sys2Proof.Machine.execBlockStoreBankService b bank s
  | .globalLoadAnswer c => Sys2Proof.Machine.execGlobalLoadAnswer c s
  | .postedStoreAck c => Sys2Proof.Machine.execPostedStoreAck c s
  | .postedStoreRefused c => Sys2Proof.Machine.execPostedStoreRefused c s
  | .feWakeScratchpad c => Sys2Proof.Machine.execFeWakeScratchpad c s
  | .feWakeBlockStore c => Sys2Proof.Machine.execFeWakeBlockStore c s
  | .remoteFeOperation b => Sys2Proof.Machine.execRemoteFeOperation b s
  | .remoteFeResend c => Sys2Proof.Machine.execRemoteFeResend c s
  | .backgroundBankAccess b cob => Sys2Proof.Machine.execBackgroundBankAccess b cob s
  | .externalWave b => Sys2Proof.Machine.execExternalWave b s
  | .correctionWriteBack row => Sys2Proof.Machine.execCorrectionWriteBack row s
  | .poisonWrite row => Sys2Proof.Machine.execPoisonWrite row s
  | .scrubRowDue b n => Sys2Proof.Machine.execScrubRowDue b n s
  | .scrubRead b n => Sys2Proof.Machine.execScrubRead b n s
  | .scrubStarved b n => Sys2Proof.Machine.execScrubStarved b n s
  | .ceRate b => Sys2Proof.Machine.execCeRate b s
  | .remoteAccess b => Sys2Proof.Machine.execRemoteAccess b s
  | .windowOpen b => Sys2Proof.Machine.execWindowOpen b s
  | .windowClose b => Sys2Proof.Machine.execWindowClose b s
  | .windowCloseAck b => Sys2Proof.Machine.execWindowCloseAck b s
  | .cachectlWrite b => Sys2Proof.Machine.execCachectlWrite b s
  | .cacheopNone b => Sys2Proof.Machine.execCacheopNone b s
  | .flush b => Sys2Proof.Machine.execFlush b s
  | .inv b => Sys2Proof.Machine.execInv b s
  | .flushinv b => Sys2Proof.Machine.execFlushinv b s
  | .cacheOperationDone b => Sys2Proof.Machine.execCacheOperationDone b s
  | .cacheFillDone b => Sys2Proof.Machine.execCacheFillDone b s
  | .syncSet b => Sys2Proof.Machine.execSyncSet b s
  | .syncAdd b => Sys2Proof.Machine.execSyncAdd b s
  | .syncRead b => Sys2Proof.Machine.execSyncRead b s
  | .syncwatchArm c obj target => Sys2Proof.Machine.execSyncwatchArm c obj target s
  | .syncwatchWithdraw c obj target => Sys2Proof.Machine.execSyncwatchWithdraw c obj target s
  | .watchRegistration b => Sys2Proof.Machine.execWatchRegistration b s
  | .watchWake c => Sys2Proof.Machine.execWatchWake c s
  | .withdrawalAck c => Sys2Proof.Machine.execWithdrawalAck c s
  | .barrierArrival b => Sys2Proof.Machine.execBarrierArrival b s
  | .barrierChildArrival b => Sys2Proof.Machine.execBarrierChildArrival b s
  | .barrierRelease b => Sys2Proof.Machine.execBarrierRelease b s
  | .hostSignalAdd pp tenant cls => Sys2Proof.Machine.execHostSignalAdd pp tenant cls s
  | .hostSignalSet pp tenant cls => Sys2Proof.Machine.execHostSignalSet pp tenant cls s
  | .hostSignalRead pp tenant cls => Sys2Proof.Machine.execHostSignalRead pp tenant cls s
  | .doorbell b => Sys2Proof.Machine.execDoorbell b s
  | .doorbellQueued pp => Sys2Proof.Machine.execDoorbellQueued pp s
  | .doorbellSend pp => Sys2Proof.Machine.execDoorbellSend pp s
  | .islandClear isl => Sys2Proof.Machine.execIslandClear isl s
  | .islandReportsClear isl => Sys2Proof.Machine.execIslandReportsClear isl s
  | .park isl => Sys2Proof.Machine.execPark isl s
  | .waitctlWrite isl value => Sys2Proof.Machine.execWaitctlWrite isl value s
  | .piazzaCountEnd k n => Sys2Proof.Machine.execPiazzaCountEnd k n s
  | .laneUnitPowerDown c => Sys2Proof.Machine.execLaneUnitPowerDown c s
  | .laneUnitWakeDone c => Sys2Proof.Machine.execLaneUnitWakeDone c s
  | .svxctlWrite c awake => Sys2Proof.Machine.execSvxctlWrite c awake s
  | .laneSleep k => Sys2Proof.Machine.execLaneSleep k s
  | .laneWakeDone k => Sys2Proof.Machine.execLaneWakeDone k s
  | .pvctlWrite k awake => Sys2Proof.Machine.execPvctlWrite k awake s
  | .pzcfgModeWrite k value => Sys2Proof.Machine.execPzcfgModeWrite k value s
  | .chnProdWrite b => Sys2Proof.Machine.execChnProdWrite b s
  | .descriptorStart b ch => Sys2Proof.Machine.execDescriptorStart b ch s
  | .dmaPieceRequest b => Sys2Proof.Machine.execDmaPieceRequest b s
  | .dmaAnswer b => Sys2Proof.Machine.execDmaAnswer b s
  | .descriptorDrained b ch => Sys2Proof.Machine.execDescriptorDrained b ch s
  | .descriptorComplete b ch => Sys2Proof.Machine.execDescriptorComplete b ch s
  | .descriptorTimeout b ch => Sys2Proof.Machine.execDescriptorTimeout b ch s
  | .clr b => Sys2Proof.Machine.execClr b s
  | .abort b => Sys2Proof.Machine.execAbort b s
  | .rd sp => Sys2Proof.Machine.execRd sp s
  | .wr sp => Sys2Proof.Machine.execWr sp s
  | .wrm sp => Sys2Proof.Machine.execWrm sp s
  | .rly sp => Sys2Proof.Machine.execRly sp s
  | .rsp sp => Sys2Proof.Machine.execRsp sp s
  | .ack sp => Sys2Proof.Machine.execAck sp s
  | .inboundRly sp => Sys2Proof.Machine.execInboundRly sp s
  | .outboundBeat sp => Sys2Proof.Machine.execOutboundBeat sp s
  | .inboundBeat sp d x => Sys2Proof.Machine.execInboundBeat sp d x s
  | .beatAnswer sp => Sys2Proof.Machine.execBeatAnswer sp s
  | .beatNak sp probe => Sys2Proof.Machine.execBeatNak sp probe s
  | .replayRateWindow pt => Sys2Proof.Machine.execReplayRateWindow pt s
  | .frameSend pp => Sys2Proof.Machine.execFrameSend pp s
  | .dataFrame pp fl => Sys2Proof.Machine.execDataFrame pp fl s
  | .controlFrame pp f => Sys2Proof.Machine.execControlFrame pp f s
  | .frameReplayTimeout pp => Sys2Proof.Machine.execFrameReplayTimeout pp s
  | .ackseqReport pp => Sys2Proof.Machine.execAckseqReport pp s
  | .controlFrameInterval pp => Sys2Proof.Machine.execControlFrameInterval pp s
  | .train pt own => Sys2Proof.Machine.execTrain pt own s
  | .retire pt => Sys2Proof.Machine.execRetire pt s
  | .presenceBeat pt d => Sys2Proof.Machine.execPresenceBeat pt d s
  | .roleBeat pt lead wd id => Sys2Proof.Machine.execRoleBeat pt lead wd id s
  | .capabilityBeat pt d => Sys2Proof.Machine.execCapabilityBeat pt d s
  | .sweepBeat pt code bad => Sys2Proof.Machine.execSweepBeat pt code bad s
  | .verifyBeat pt pass => Sys2Proof.Machine.execVerifyBeat pt pass s
  | .doneBeat pt => Sys2Proof.Machine.execDoneBeat pt s
  | .statusBeat pt ph pass => Sys2Proof.Machine.execStatusBeat pt ph pass s
  | .trainingTimeout pt => Sys2Proof.Machine.execTrainingTimeout pt s
  | .mirrorPeriod pt lo hi => Sys2Proof.Machine.execMirrorPeriod pt lo hi s
  | .quietWindowProbe sp d x => Sys2Proof.Machine.execQuietWindowProbe sp d x s
  | .seamIdleTest b bad ctl => Sys2Proof.Machine.execSeamIdleTest b bad ctl s
  | .packetInjection b => Sys2Proof.Machine.execPacketInjection b s
  | .routerGrant b port5 err => Sys2Proof.Machine.execRouterGrant b port5 err s
  | .priorityAgeing b point n => Sys2Proof.Machine.execPriorityAgeing b point n s
  | .creditReturn b port5 vc => Sys2Proof.Machine.execCreditReturn b port5 vc s
  | .packetEjection b vc => Sys2Proof.Machine.execPacketEjection b vc s
  | .nocpriWrite b => Sys2Proof.Machine.execNocpriWrite b s
  | .nteFrameReceived isl => Sys2Proof.Machine.execNteFrameReceived isl s
  | .incomingSend isl => Sys2Proof.Machine.execIncomingSend isl s
  | .incomingWrite isl => Sys2Proof.Machine.execIncomingWrite isl s
  | .incomingRead isl => Sys2Proof.Machine.execIncomingRead isl s
  | .readResponse isl => Sys2Proof.Machine.execReadResponse isl s
  | .incomingAck isl => Sys2Proof.Machine.execIncomingAck isl s
  | .incomingNak isl => Sys2Proof.Machine.execIncomingNak isl s
  | .incomingCnp isl => Sys2Proof.Machine.execIncomingCnp isl s
  | .sqidxProdWrite isl => Sys2Proof.Machine.execSqidxProdWrite isl s
  | .rqidxProdWrite isl => Sys2Proof.Machine.execRqidxProdWrite isl s
  | .send isl qp => Sys2Proof.Machine.execSend isl qp s
  | .sendImm isl qp => Sys2Proof.Machine.execSendImm isl qp s
  | .write isl qp => Sys2Proof.Machine.execWrite isl qp s
  | .writeImm isl qp => Sys2Proof.Machine.execWriteImm isl qp s
  | .read isl qp => Sys2Proof.Machine.execRead isl qp s
  | .workRequestComplete isl qp => Sys2Proof.Machine.execWorkRequestComplete isl qp s
  | .responderCompletion isl qp => Sys2Proof.Machine.execResponderCompletion isl qp s
  | .localAckTimeout isl qp => Sys2Proof.Machine.execLocalAckTimeout isl qp s
  | .rnrTimer isl qp => Sys2Proof.Machine.execRnrTimer isl qp s
  | .talpha isl qp => Sys2Proof.Machine.execTalpha isl qp s
  | .tinc isl qp => Sys2Proof.Machine.execTinc isl qp s
  | .mrValidSet isl => Sys2Proof.Machine.execMrValidSet isl s
  | .mrValidClear isl => Sys2Proof.Machine.execMrValidClear isl s
  | .commandItem pp => Sys2Proof.Machine.execCommandItem pp s
  | .itemStart q => Sys2Proof.Machine.execItemStart q s
  | .commandTimeout q => Sys2Proof.Machine.execCommandTimeout q s
  | .identify => Sys2Proof.Machine.execIdentify s
  | .readStepcnt => Sys2Proof.Machine.execReadStepcnt s
  | .readPartmap => Sys2Proof.Machine.execReadPartmap s
  | .setPlan => Sys2Proof.Machine.execSetPlan s
  | .openPartition part => Sys2Proof.Machine.execOpenPartition part s
  | .closePartition part => Sys2Proof.Machine.execClosePartition part s
  | .setSlotMode part => Sys2Proof.Machine.execSetSlotMode part s
  | .queryPartition part => Sys2Proof.Machine.execQueryPartition part s
  | .loadImage part data => Sys2Proof.Machine.execLoadImage part data s
  | .unloadImage part => Sys2Proof.Machine.execUnloadImage part s
  | .launch part data => Sys2Proof.Machine.execLaunch part data s
  | .setSigperm part => Sys2Proof.Machine.execSetSigperm part s
  | .signal part => Sys2Proof.Machine.execSignal part s
  | .bindStream part => Sys2Proof.Machine.execBindStream part s
  | .unbindStream part => Sys2Proof.Machine.execUnbindStream part s
  | .nteEndpoint part => Sys2Proof.Machine.execNteEndpoint part s
  | .qpConnect part => Sys2Proof.Machine.execQpConnect part s
  | .qpDisconnect part => Sys2Proof.Machine.execQpDisconnect part s
  | .linkStatus => Sys2Proof.Machine.execLinkStatus s
  | .linkTrain => Sys2Proof.Machine.execLinkTrain s
  | .linkRetire => Sys2Proof.Machine.execLinkRetire s
  | .contextSwitch part => Sys2Proof.Machine.execContextSwitch part s
  | .resetPartition part => Sys2Proof.Machine.execResetPartition part s
  | .resetBlock b => Sys2Proof.Machine.execResetBlock b s
  | .resetCobble c => Sys2Proof.Machine.execResetCobble c s
  | .resetEngine b eng => Sys2Proof.Machine.execResetEngine b eng s
  | .fenceCommand => Sys2Proof.Machine.execFenceCommand s
  | .flushQueue => Sys2Proof.Machine.execFlushQueue s
  | .resetChip => Sys2Proof.Machine.execResetChip s
  | .readLog => Sys2Proof.Machine.execReadLog s
  | .readDump => Sys2Proof.Machine.execReadDump s
  | .copyDump => Sys2Proof.Machine.execCopyDump s
  | .readErrcnt => Sys2Proof.Machine.execReadErrcnt s
  | .setBudget => Sys2Proof.Machine.execSetBudget s
  | .readTelemetry => Sys2Proof.Machine.execReadTelemetry s
  | .setOpcap => Sys2Proof.Machine.execSetOpcap s
  | .readAgeing => Sys2Proof.Machine.execReadAgeing s
  | .selftestRun => Sys2Proof.Machine.execSelftestRun s
  | .selftestStatus => Sys2Proof.Machine.execSelftestStatus s
  | .attest => Sys2Proof.Machine.execAttest s
  | .getCert => Sys2Proof.Machine.execGetCert s
  | .fwStage => Sys2Proof.Machine.execFwStage s
  | .fwActivate => Sys2Proof.Machine.execFwActivate s
  | .debugChallenge => Sys2Proof.Machine.execDebugChallenge s
  | .debugUnlock => Sys2Proof.Machine.execDebugUnlock s
  | .debugLock => Sys2Proof.Machine.execDebugLock s
  | .halt => Sys2Proof.Machine.execHalt s
  | .resume => Sys2Proof.Machine.execResume s
  | .readCore => Sys2Proof.Machine.execReadCore s
  | .readSync => Sys2Proof.Machine.execReadSync s
  | .traceCtl => Sys2Proof.Machine.execTraceCtl s
  | .engineWatchdog b eng => Sys2Proof.Machine.execEngineWatchdog b eng s
  | .drainLimit n => Sys2Proof.Machine.execDrainLimit n s
  | .guiltyPartyReplay b eng => Sys2Proof.Machine.execGuiltyPartyReplay b eng s
  | .kick => Sys2Proof.Machine.execKick s
  | .mgmtWatchdogExpiry lockstep => Sys2Proof.Machine.execMgmtWatchdogExpiry lockstep s
  | .mgmtRestartDone => Sys2Proof.Machine.execMgmtRestartDone s
  | .attnFrame => Sys2Proof.Machine.execAttnFrame s
  | .mgmtUnreachable => Sys2Proof.Machine.execMgmtUnreachable s
  | .partitionLost part => Sys2Proof.Machine.execPartitionLost part s
  | .dumpRecordCopied part => Sys2Proof.Machine.execDumpRecordCopied part s
  | .powerReading pp => Sys2Proof.Machine.execPowerReading pp s
  | .readingsMissing => Sys2Proof.Machine.execReadingsMissing s
  | .powerStatusMessage => Sys2Proof.Machine.execPowerStatusMessage s
  | .regulatorSettled isl => Sys2Proof.Machine.execRegulatorSettled isl s
  | .alertNAssert => Sys2Proof.Machine.execAlertNAssert s
  | .alertNRelease => Sys2Proof.Machine.execAlertNRelease s
  | .alertReleaseDelay => Sys2Proof.Machine.execAlertReleaseDelay s
  | .brownoutHoldStart isl => Sys2Proof.Machine.execBrownoutHoldStart isl s
  | .brownoutHoldEnd isl => Sys2Proof.Machine.execBrownoutHoldEnd isl s
  | .brownoutRegulatorFail isl => Sys2Proof.Machine.execBrownoutRegulatorFail isl s
  | .sentinelMeasurement isl j data matched test => Sys2Proof.Machine.execSentinelMeasurement isl j data matched test s
  | .stepTimeSample isl steps => Sys2Proof.Machine.execStepTimeSample isl steps s
  | .marginReplan => Sys2Proof.Machine.execMarginReplan s
  | .thermalTrip sensor temp => Sys2Proof.Machine.execThermalTrip sensor temp s
  | .timerefEdge => Sys2Proof.Machine.execTimerefEdge s
  | .timerefLoss => Sys2Proof.Machine.execTimerefLoss s
  | .timeMessage value => Sys2Proof.Machine.execTimeMessage value s
  | .logRecordWrite => Sys2Proof.Machine.execLogRecordWrite s
  | .logCopyAck => Sys2Proof.Machine.execLogCopyAck s
  | .cntWrap isl ev => Sys2Proof.Machine.execCntWrap isl ev s
  | .cntSat => Sys2Proof.Machine.execCntSat s
  | .pktimeLoRead => Sys2Proof.Machine.execPktimeLoRead s
  | .stepcntLoRead isl ev => Sys2Proof.Machine.execStepcntLoRead isl ev s
  | .energyLoRead => Sys2Proof.Machine.execEnergyLoRead s
  | .rcRegisterRead b => Sys2Proof.Machine.execRcRegisterRead b s
  | .registerWrite fw space unit off value => Sys2Proof.Machine.execRegisterWrite fw space unit off value s
  | .blkmapWrite b value => Sys2Proof.Machine.execBlkmapWrite b value s
  | .bootphWrite value => Sys2Proof.Machine.execBootphWrite value s
  | .pwrgoodRise pos cls testmode => Sys2Proof.Machine.execPwrgoodRise pos cls testmode s
  | .pwrgoodFall => Sys2Proof.Machine.execPwrgoodFall s
  | .resetNAssert => Sys2Proof.Machine.execResetNAssert s
  | .resetNRelease => Sys2Proof.Machine.execResetNRelease s
  | .vaonLow => Sys2Proof.Machine.execVaonLow s
  | .vinRailChange south ok => Sys2Proof.Machine.execVinRailChange south ok s
  | .managementCoreStage => Sys2Proof.Machine.execManagementCoreStage s
  | .timebaseStage bad seams routers => Sys2Proof.Machine.execTimebaseStage bad seams routers s
  | .managementPortStage image recOk => Sys2Proof.Machine.execManagementPortStage image recOk s
  | .memoryStage defects slow => Sys2Proof.Machine.execMemoryStage defects slow s
  | .linkStage => Sys2Proof.Machine.execLinkStage s
  | .computeIslandStage differs image => Sys2Proof.Machine.execComputeIslandStage differs image s
  | .timerefAbsent => Sys2Proof.Machine.execTimerefAbsent s
  | .railWaitExpiry => Sys2Proof.Machine.execRailWaitExpiry s
  | .startFailed => Sys2Proof.Machine.execStartFailed s
  | .fuseprog field idx value vfuse => Sys2Proof.Machine.execFuseprog field idx value vfuse s
  | .bypass tdi => Sys2Proof.Machine.execBypass tdi s
  | .idcode tdi => Sys2Proof.Machine.execIdcode tdi s
  | .samplePreload tdi => Sys2Proof.Machine.execSamplePreload tdi s
  | .extest tdi => Sys2Proof.Machine.execExtest tdi s
  | .wrapperInstructions tdi => Sys2Proof.Machine.execWrapperInstructions tdi s
  | .networkAccess1687 seg tdi => Sys2Proof.Machine.execNetworkAccess1687 seg tdi s
  | .selftestSchedule => Sys2Proof.Machine.execSelftestSchedule s
  | .selftestCheckpoint isl defects => Sys2Proof.Machine.execSelftestCheckpoint isl defects s
  | .debugNonceExpiry part => Sys2Proof.Machine.execDebugNonceExpiry part s
  | .debugLockoutEnd part => Sys2Proof.Machine.execDebugLockoutEnd part s
  | .ringOscillatorTick => Sys2Proof.Machine.execRingOscillatorTick s
  | .ntePacketSend isl => Sys2Proof.Machine.execNtePacketSend isl s
  | .resetPhaseLimit part => Sys2Proof.Machine.execResetPhaseLimit part s
  | .engineResetLimit b eng => Sys2Proof.Machine.execEngineResetLimit b eng s

end Sys2Proof.Machine
end

