-- ==== Sys2Proof/Machine/Fetch.lean ====
section
/-!
DEFINITION. The cobbles' own issue of instructions: fetch at the program counter, decoding, and the step of every core
(R81 to R83, R91, R92, R142; notes/assumptions/40.md).
-/

namespace Sys2Proof.Machine

/-- The word that the fetch port reads at the program counter: a correctable error is corrected, an uncorrectable one leaves the
word free (R83, R142, R163; notes/assumptions/101.md). -/
def State.fetch (s : State) (c : Nat) : W32 × State :=
  let (d, psn, s) := s.readMem (scrAddr c (s.cob c).pc.toNat) 4
  if psn then
    let (v, s) := s.draw
    (v.setWidth 32, s)
  else (BitVec.ofNat 32 (ofBytes d), s)

/-- Does an address name the own block store (Table 04-5)? -/
def ownStore (a : BitVec 64) : Bool := a.toNat / 2 ^ 56 == 1

/-- Does a core hold issue for admission at its block store (R497)? -/
def Cobble.admHeld (k : Cobble) : Bool :=
  match k.hold with
  | .adm l st => (l.map (fun x => ownStore x.addr)).getD false || (st.map (fun x => ownStore x.addr)).getD false
  | _ => false

/-- A core that may issue fetches one word and issues what it spells; a word that spells nothing raises ILLEGAL_INSTRUCTION
(R81, R83, R92). A bad fetch raises its own trap, whatever the word. A step in which it holds for its block store, or in which its instruction waits beside data of the block
store, counts for EV3 (R497; notes/assumptions/40.md). -/
def State.coreStep (s : State) (c : Nat) : State :=
  if !(s.settleWait c).mayIssue c then if (s.cob c).admHeld then s.see (islOf c) 3 else s
  else
    let (w, t) := if (s.cob c).badFetch then (0, s) else s.fetch c
    let r := match decodeWord c w with
      | some i => exec i t
      | none => issue c w [] [] (fun _ u => u.illegal c w) t
    match r with
    | .next u => if u.cob c = s.cob c && (s.cob c).loads.any (fun l => ownStore l.addr) then u.see (islOf c) 3 else u
    | _ => t

/-- The cobbles whose cores run. -/
def State.runners (s : State) : List Nat := (s.cobs.filter (fun e => e.2.run == .running)).map (·.1)

/-- One step with no command: every running core issues, the ports' training beats leave, then every island takes its step. -/
def State.turn (s : State) : State := (s.runners.foldl State.coreStep s).linkTurn.idle

end Sys2Proof.Machine
end

