-- ==== Sys2Proof/Machine/Step.lean ====
section
/-!
DEFINITION. One step of the block: the command at the front of the queue, or, with none waiting, one step of the cores and the
islands (notes/assumptions/40.md).
-/

namespace Sys2Proof.Machine

/-- Takes the front command off the queue and runs it; an empty queue lets the cores and the islands take one step. -/
def step (s : State) : Host.Outcome State Fault Refusal :=
  match s.pending with
  | [] => .next s.turn
  | c :: rest => exec c { s with pending := rest }

/-- The opcode table gives no row bits, so no word spells a command. -/
def State.withFetchWord (s : State) (nbits w : Nat) : State :=
  match decodeTableWord nbits w with
  | some c => { s with pending := c :: s.pending }
  | none => s

end Sys2Proof.Machine
end

