-- ==== Sys2Proof/Safety.lean ====
section
/-!
DEFINITION. What claims mean by a safe run: the conditions under which an instruction has its own effect, the canonical
form that every step keeps, and the parts of a state that an effect leaves alone.
-/

namespace Sys2Proof.Machine

/-- A cobble issues an instruction that names these integer and f register fields: its core is in service and may issue,
the program counter lies in the code region, every field names a register that awaits no load and no result of the
piazza (R81, R83, R85, R213). -/
def State.ready (s : State) (c : Nat) (ints fps : List (BitVec 6)) : Bool :=
  let k := s.cob c
  decide (c < nCobbles) && s.canIssue c && !k.badFetch &&
    ints.all (fun f => match regIdx k f with
      | some i => !k.intBusy i
      | none => false) &&
    fps.all (fun f => decide (f.toNat < 32) && !k.fpBusy f.toNat) && !s.flyBusy c ints fps

/-- The outcome of an instruction that changes its cobble alone and moves on. -/
def State.put (s : State) (c : Nat) (k : Cobble) : Res := .next (s.setCob c k.adv)

/-- Two states agree on every byte, FE bit, poisoned row and upset row of the memories. -/
def sameMemory (s t : State) : Prop := t.mem = s.mem ∧ t.fe = s.fe ∧ t.psn = s.psn ∧ t.upset = s.upset

/-- Two states agree on every cobble but `c`. -/
def otherCobbles (c : Nat) (s t : State) : Prop := ∀ d, d ≠ c → t.cob d = s.cob d

/-- Two states agree on every register and program counter of every cobble. -/
def sameRegisters (s t : State) : Prop := ∀ c, (t.cob c).ints = (s.cob c).ints ∧ (t.cob c).fps = (s.cob c).fps ∧
  (t.cob c).pc = (s.cob c).pc

/-- The command answers a next state, and that state satisfies a property. -/
def runs (i : Instr) (s : State) (p : State → Prop) : Prop := ∃ t, exec i s = .next t ∧ p t

/-- The stages of a block run: the block exists and no brown-out holds its island (Table 01-1, R481). -/
def State.staged (s : State) (b : Nat) : Prop := b < nBlocks ∧ (s.isl (islOfBlk b)).brown = false

/-- The stages of a stream port run, and those of a packet port. -/
def State.stagedSp (s : State) (p : Nat) : Prop := p < 160 ∧ (s.isl (p / 16)).brown = false
def State.stagedPp (s : State) (p : Nat) : Prop := p < 12 ∧ (p < 10 → (s.isl p).brown = false)

/-- No message waits at the master stop, and one with this tag to island `i` arrives and is acted on (R28, R412). -/
def ringFree (s : State) (tag i : Nat) : Prop :=
  s.aon.ringq = [] ∧ (s.aon.ringWay i).isSome = true ∧ s.ringActs tag i = true

end Sys2Proof.Machine
end

