-- ==== Sys2Proof/Certificates/Slice0/Obligations.lean ====
section
/-!
DEFINITION. The statements for the provers.
-/

section
open Sys2Proof Sys2Proof.Machine

/-- For every command and state, a step with the command at the front of the queue is the command's exec on the state with the queue's rest. The queue is the block model's own interface. -/
def Obligations.StepRunsFrontCommand : Prop :=
  ∀ (s : State) (i : Instr) (rest : List Instr),
    step { s with pending := i :: rest } = exec i { s with pending := rest }

/-- Words laid out by the formats of Table 04-3 spell their instruction, whatever their fields hold (R91, R92, R536). -/
def wordsSpell : Prop :=
  ∀ (c : Nat) (x : Bool) (r a b : BitVec 6) (f : BitVec 2) (k : BitVec 12) (i : BitVec 14) (h : BitVec 20) (o : BitVec 26)
    (t u v : BitVec 3) (m : BitVec 5),
    decodeWord c (wRR 0x00 r a b (64 * boolNat x)) = some (.add c x r a b) ∧
    decodeWord c (wRR 0x09 r a b (3 + 64 * boolNat x)) = some (.divs c x r a b) ∧
    decodeWord c (wRK 0x01 r a i) = some (.addI c r a i) ∧
    decodeWord c (wRKs 0x05 r a 2 k) = some (.shraI c r a k) ∧
    decodeWord c (wHI 0x08 r h) = some (.ldhi c r h) ∧
    decodeWord c (wRKs 0x0B r a 2 k) = some (.ldD c r a k) ∧
    decodeWord c (wRKs 0x0E r a 0 k) = some (.stB c r a k) ∧
    decodeWord c (wRKs 0x11 r a 1 k) = some (.stf c r a k) ∧
    decodeWord c (wRKs 0x13 r a 0 k) = some (.brLtu c r a k) ∧
    decodeWord c (wJT 0x14 o) = some (.jlink c o) ∧
    decodeWord c (wCsr 2 r a k) = some (.cset c r a k) ∧
    decodeWord c (wRK 0x3B 6#6 a i) = some (.hret c a i) ∧
    decodeWord c (wFp 3 r a b f) = some (.fdiv c r a b f) ∧
    decodeWord c (wVR 0x1D t u v t u (5 : BitVec 11)) = some (.vfnma c t u v t u 0) ∧
    decodeWord c (wPz 0x2D (r ++ a ++ b ++ t ++ u ++ BitVec.ofBool x ++ BitVec.ofBool x)) = some (.mma c r a b t u x x) ∧
    decodeWord c (wPz 0x31 (m ++ m ++ m ++ m ++ t ++ f ++ BitVec.ofBool x)) = some (.top c m m m m t f x)

/-- With an empty queue a step answers the state's turn. A core that may issue with no bad fetch reads the word at its program counter: where the word spells an instruction, its cobbles, memory and blocks become those of that command's exec; where it spells none, they become those of ILLEGAL_INSTRUCTION's trap. Words of the formats of Table 04-3 spell their instruction for every field. Where no core runs, no port trains and no replay ages, memory, FE bits, check-bit errors, cobbles, blocks, slots, ports and partitions are unchanged; the step counter of every powered island that no brown-out holds has risen by 1 unless it is all ones, where it stays; an island that is off or held keeps every counter. That this is what an empty queue does is the model's choice (log entry 40); a fetched word with an uncorrectable error is free (log 101). -/
def Obligations.EmptyQueueStepsIslands : Prop :=
  (∀ (s : State), s.pending = [] → step s = .next s.turn) ∧ wordsSpell ∧
  (∀ (s u : State) (c : Nat) (w : W32) (t : State), (s.settleWait c).mayIssue c = true → (s.cob c).badFetch = false →
    s.fetch c = (w, t) →
    (∀ i, decodeWord c w = some i → exec i t = .next u →
      (s.coreStep c).cobs = u.cobs ∧ (s.coreStep c).mem = u.mem ∧ (s.coreStep c).blks = u.blks) ∧
    (decodeWord c w = none → t.ready c [] [] = true →
      (s.coreStep c).cobs = (t.illegal c w).cobs ∧ (s.coreStep c).mem = (t.illegal c w).mem)) ∧
  (∀ (s : State), s.runners = [] → (∀ e ∈ s.ports, e.2.st ≠ 1 ∧ e.2.rep = none) →
    sameMemory s s.turn ∧ s.turn.cobs = s.cobs ∧ s.turn.blks = s.blks ∧ s.turn.slots = s.slots ∧
      s.turn.ports = s.ports ∧ s.turn.parts = s.parts ∧
      ∀ i, i < 10 →
        ((s.isl i).powered = true → (s.isl i).brown = false →
          (s.turn.isl i).counter 0 =
            if (s.isl i).counter 0 = BitVec.allOnes 64 then (s.isl i).counter 0 else (s.isl i).counter 0 + 1) ∧
        ((s.isl i).powered = false ∨ (s.isl i).brown = true → ∀ n, (s.turn.isl i).counter n = (s.isl i).counter n))

/-- In the state after reset every cobble's FPCR reads 4, FPFLAGS, STATUS, TRBASE, TRPC, TRCAUSE, TRINFO, TRSTAT, TRLPC, FEWAIT, IENABLE, IPEND, RSTADDR, PHASEID and AMAX read 0, WINSTATE reads 8 (HELD = 1), TIMECMP reads all ones, SVXCTL reads 2 (asleep, AWAKE 0), SVSCALE reads 0x7F, TSTATE reads 0, the piazza's registers are absent because STATUS.PZ is 0, the queue of commands is empty and no byte of memory is listed. Model choice: log 2. -/
def Obligations.ResetHoldsTableValues : Prop :=
  (∀ c, State.reset.csrVal c 0x000 = some 4#64 ∧
    (∀ n ∈ [0x001, 0x010, 0x020, 0x021, 0x022, 0x023, 0x024, 0x025, 0x032, 0x040, 0x041, 0x042, 0x050, 0x071, 0x073],
      State.reset.csrVal c n = some 0#64) ∧
    State.reset.csrVal c 0x011 = some 8#64 ∧ State.reset.csrVal c 0x031 = some (BitVec.allOnes 64) ∧
    State.reset.csrVal c 0x070 = some 2#64 ∧ State.reset.csrVal c 0x072 = some 0x7F#64 ∧
    (∀ n ∈ [0x090, 0x091, 0x092, 0x093, 0x094, 0x095, 0x096, 0x098, 0x099, 0x09A, 0x09B],
      State.reset.csrVal c n = none)) ∧
  State.reset.pending = [] ∧ State.reset.mem = []

/-- The memory of the state after reset is in canonical form: addresses strictly rising, no listed byte equal to what an unlisted address reads as. The form is the model's own. -/
def Obligations.ResetMemoryCanonical : Prop :=
  Memory.wf State.reset.mem = true

/-- For every state whose memory is in canonical form, if a step answers a next state, its memory is in canonical form too, whatever command of the table was at the front of the queue, and also when the queue was empty. The canonical form is the model's own; with it a byte reads as it was last written. -/
def Obligations.StepKeepsMemoryCanonical : Prop :=
  ∀ (s t : State), Memory.wf s.mem = true → step s = .next t → Memory.wf t.mem = true

/-- In a state whose memory is canonical, after a write of bytes under a mask, every byte of the range whose mask bit is 1 reads as the byte written, every other byte of the machine reads as before, whether or not the write is poisoned; the read of a range delivers those bytes in order. -/
def maskedWriteReachesItsBytesOnly : Prop :=
  ∀ (s : State) (a m : Nat) (d : List Byte) (psn : Bool), Memory.wf s.mem = true →
    (∀ b, (s.writeMem a m d psn).rd8 b =
      if a ≤ b ∧ b < a + d.length ∧ bit m (b - a) = true then d.getD (b - a) 0 else s.rd8 b) ∧
    (∀ n i, i < n → (s.readMem a n).1.getD i 0 = s.rd8 (a + i))

/-- A write that covers a whole row (4 bytes of a scratchpad, 8 bytes of a block store) leaves the row poisoned exactly when the write is poisoned, and free of upsets. A write of part of the row leaves it poisoned when the write is poisoned, the row was poisoned, or it held an uncorrectable upset, and otherwise free of both. No other row's poison or upsets change. -/
def rowStateAfterWrite : Prop :=
  ∀ (s : State) (a : Nat) (full psn : Bool), canonFrom false 0 s.psn = true → canonFrom 0 0 s.upset = true →
    let t := s.writeRow a full psn
    (∀ r, lget false t.psn r = if r = rowOf a then
        psn || (!full && (lget false s.psn (rowOf a) || decide (2 ≤ lget 0 s.upset (rowOf a)))) else lget false s.psn r) ∧
    (∀ r, lget 0 t.upset r = if r = rowOf a then 0 else lget 0 s.upset r)

/-- In a state whose memory is canonical, after a write of bytes under a mask, every byte of the range whose mask bit is 1 reads as the byte written, every other byte of the machine reads as before, whether or not the write is poisoned; the read of a range delivers those bytes in order. A write that covers a whole row (4 bytes of a scratchpad, 8 bytes of a block store) leaves the row poisoned exactly when the write is poisoned, and free of upsets. A write of part of the row leaves it poisoned when the write is poisoned, the row was poisoned, or it held an uncorrectable upset, and otherwise free of both. No other row's poison or upsets change. Model choice: log 52. -/
def Obligations.MemoryWritesReachTheirBytesAndRows : Prop :=
  maskedWriteReachesItsBytesOnly ∧ rowStateAfterWrite

/-- In a program window (TW = 0, TOP 0 to 4) the fields 0 to 39 name forty distinct registers and 40 to 63 none; the p registers of a window are the q registers of the window below it in the ring. In the trap window 40 to 55 name t0 to t15: t0 to t7 are the p registers and t8 to t15 the k registers of window MOVE, fields 0 to 39 stay distinct and 56 to 63 name none. A write to a field reads back through it and through no other field, except g0, which reads 0 and whose write changes nothing. -/
def Obligations.RegisterFieldsNameDistinctRegisters : Prop :=
  ∀ (k : Cobble), k.top < 5 → k.move < 5 →
    (k.tw = false →
      (∀ f : BitVec 6, (regIdx k f).isSome = decide (f.toNat < 40)) ∧
      (∀ n, n < 8 → regIdx k (BitVec.ofNat 6 (16 + n)) =
        regIdx { k with top := (k.top + 4) % 5 } (BitVec.ofNat 6 (32 + n)))) ∧
    (k.tw = true →
      (∀ f : BitVec 6, (regIdx k f).isSome = decide (f.toNat < 56)) ∧
      (∀ n, n < 8 → regIdx k (BitVec.ofNat 6 (40 + n)) =
          regIdx { k with tw := false, top := k.move } (BitVec.ofNat 6 (16 + n)) ∧
        regIdx k (BitVec.ofNat 6 (48 + n)) =
          regIdx { k with tw := false, top := k.move } (BitVec.ofNat 6 (24 + n)))) ∧
    (∀ (f g : BitVec 6) (v : W64), (regIdx k f).isSome = true → (regIdx k g).isSome = true →
      (k.setInt f v).int g = if f = g ∧ f ≠ 0 then v else k.int g) ∧
    k.int 0 = 0 ∧ (∀ v, k.setInt 0 v = k)

/-- A register form and its word form at a ready cobble: the 64-bit result, and the sign-extended 32-bit result. -/
def formResults (s : State) (i : Nat → Bool → BitVec 6 → BitVec 6 → BitVec 6 → Instr) (f : W64 → W64 → W64)
    (g : W32 → W32 → W32) : Prop :=
  ∀ c rd rs1 rs2, s.ready c [rd, rs1, rs2] [] = true →
    let k := s.cob c
    exec (i c false rd rs1 rs2) s = s.put c (k.setInt rd (f (k.int rs1) (k.int rs2))) ∧
    exec (i c true rd rs1 rs2) s =
      s.put c (k.setInt rd ((g ((k.int rs1).setWidth 32) ((k.int rs2).setWidth 32)).signExtend 64))

/-- A division: INT_DIVIDE_BY_ZERO where the divisor is zero in the form's width, else its result. -/
def divResults (s : State) (i : Nat → Bool → BitVec 6 → BitVec 6 → BitVec 6 → Instr) (f : W64 → W64 → W64)
    (g : W32 → W32 → W32) : Prop :=
  ∀ c rd rs1 rs2, s.ready c [rd, rs1, rs2] [] = true →
    let k := s.cob c
    let a := k.int rs1
    let b := k.int rs2
    exec (i c false rd rs1 rs2) s = (if b = 0 then .next (s.trap c 7 0) else s.put c (k.setInt rd (f a b))) ∧
    exec (i c true rd rs1 rs2) s =
      (if b.setWidth 32 = 0#32 then .next (s.trap c 7 0)
       else s.put c (k.setInt rd ((g (a.setWidth 32) (b.setWidth 32)).signExtend 64)))

/-- An immediate form at a ready cobble. -/
def immResults (s : State) (i : Nat → BitVec 6 → BitVec 6 → BitVec 14 → Instr) (f : W64 → W64 → W64) : Prop :=
  ∀ c rd rs1 imm, s.ready c [rd, rs1] [] = true →
    exec (i c rd rs1 imm) s =
      s.put c ((s.cob c).setInt rd (f ((s.cob c).int rs1) (imm.signExtend 64)))

/-- A shift by an immediate amount: imm[5:0]; imm[11:6] other than 0 is illegal. -/
def shiftResults (s : State) (i : Nat → BitVec 6 → BitVec 6 → BitVec 12 → Instr) (f : W64 → Nat → W64) : Prop :=
  ∀ c rd rs1 imm, s.ready c [rd, rs1] [] = true → imm.toNat < 64 →
    exec (i c rd rs1 imm) s = s.put c ((s.cob c).setInt rd (f ((s.cob c).int rs1) imm.toNat))

/-- At a cobble that is ready for the instruction, every register form ADD to MAXU, MUL, MULHS and MULHU and its word form, every immediate form ADD.I to SETLTU.I, SHLL.I, SHRL.I and SHRA.I with imm[11:6] = 0, and with a divisor that is not zero DIVS, DIVU, MODS and MODU and their word forms, complete: the destination takes the result of R93 (64-bit, or the sign-extended 32-bit result of a word form on bits [31:0]; shift amounts of 6 or 5 bits; the high half of the exact product; quotients rounded toward zero), the program counter moves on by 4, and nothing else of the machine changes. A zero divisor raises INT_DIVIDE_BY_ZERO (cause 7, TRINFO 0) and writes no result. MULHS of 64 bits is bits [127:64] of the signed product. The most negative integer divided by -1 gives itself, and remainder 0. Every clause on a command concludes that exec answers a next state. -/
def Obligations.IntegerArithmetic : Prop :=
  ∀ (s : State),
    formResults s .add (· + ·) (· + ·) ∧ formResults s .sub (· - ·) (· - ·) ∧
    formResults s .and (· &&& ·) (· &&& ·) ∧ formResults s .or (· ||| ·) (· ||| ·) ∧
    formResults s .xor (· ^^^ ·) (· ^^^ ·) ∧
    formResults s .shll (fun a b => a <<< (b.toNat % 64)) (fun a b => a <<< (b.toNat % 32)) ∧
    formResults s .shrl (fun a b => a >>> (b.toNat % 64)) (fun a b => a >>> (b.toNat % 32)) ∧
    formResults s .shra (fun a b => a.sshiftRight (b.toNat % 64)) (fun a b => a.sshiftRight (b.toNat % 32)) ∧
    formResults s .setlt (fun a b => if a.slt b then 1 else 0) (fun a b => if a.slt b then 1 else 0) ∧
    formResults s .setltu (fun a b => if a.ult b then 1 else 0) (fun a b => if a.ult b then 1 else 0) ∧
    formResults s .min (fun a b => if a.slt b then a else b) (fun a b => if a.slt b then a else b) ∧
    formResults s .max (fun a b => if a.slt b then b else a) (fun a b => if a.slt b then b else a) ∧
    formResults s .minu (fun a b => if a.ult b then a else b) (fun a b => if a.ult b then a else b) ∧
    formResults s .maxu (fun a b => if a.ult b then b else a) (fun a b => if a.ult b then b else a) ∧
    formResults s .mul (· * ·) (· * ·) ∧
    formResults s .mulhs (fun a b => ((a.signExtend 128 * b.signExtend 128) >>> 64).setWidth 64)
      (fun a b => ((a.signExtend 64 * b.signExtend 64) >>> 32).setWidth 32) ∧
    formResults s .mulhu (fun a b => ((a.zeroExtend 128 * b.zeroExtend 128) >>> 64).setWidth 64)
      (fun a b => ((a.zeroExtend 64 * b.zeroExtend 64) >>> 32).setWidth 32) ∧
    divResults s .divs (fun a b => BitVec.ofInt 64 (a.toInt.tdiv b.toInt)) (fun a b => BitVec.ofInt 32 (a.toInt.tdiv b.toInt)) ∧
    divResults s .divu (fun a b => BitVec.ofNat 64 (a.toNat / b.toNat)) (fun a b => BitVec.ofNat 32 (a.toNat / b.toNat)) ∧
    divResults s .mods (fun a b => BitVec.ofInt 64 (a.toInt.tmod b.toInt)) (fun a b => BitVec.ofInt 32 (a.toInt.tmod b.toInt)) ∧
    divResults s .modu (fun a b => BitVec.ofNat 64 (a.toNat % b.toNat)) (fun a b => BitVec.ofNat 32 (a.toNat % b.toNat)) ∧
    immResults s .addI (· + ·) ∧ immResults s .andI (· &&& ·) ∧ immResults s .orI (· ||| ·) ∧
    immResults s .xorI (· ^^^ ·) ∧ immResults s .setltI (fun a b => if a.slt b then 1 else 0) ∧
    immResults s .setltuI (fun a b => if a.ult b then 1 else 0) ∧
    shiftResults s .shllI (· <<< ·) ∧ shiftResults s .shrlI (· >>> ·) ∧ shiftResults s .shraI BitVec.sshiftRight

/-- At a ready cobble LDHI writes its 20-bit constant shifted left by 12, sign-extended to 64 bits, to rd; PCHI writes its own address plus that value. Both move on by 4 and change nothing else. -/
def highConstants : Prop :=
  ∀ (s : State) (c : Nat) (rd : BitVec 6) (imm : BitVec 20), s.ready c [rd] [] = true →
    let k := s.cob c
    exec (.ldhi c rd imm) s = s.put c (k.setInt rd (imm.signExtend 64 <<< 12)) ∧
    exec (.pchi c rd imm) s = s.put c (k.setInt rd (k.pc + imm.signExtend 64 <<< 12))

/-- A branch at a ready cobble: taken where the comparison of rs1 with rs2 holds. -/
def branchTakes (s : State) (i : Nat → BitVec 6 → BitVec 6 → BitVec 12 → Instr) (cond : W64 → W64 → Prop) : Prop :=
  ∀ c rs1 rs2 off, s.ready c [rs1, rs2] [] = true →
    let k := s.cob c
    (cond (k.int rs1) (k.int rs2) →
      exec (i c rs1 rs2 off) s = .next (s.setCob c { k with pc := k.pc + 4 * off.signExtend 64 })) ∧
    (¬ cond (k.int rs1) (k.int rs2) → exec (i c rs1 rs2 off) s = s.put c k)

/-- At a ready cobble BR.EQ, BR.NE, BR.LT, BR.GE, BR.LTU and BR.GEU set the program counter to their own address plus 4 times the sign-extended offset when the comparison of rs1 with rs2 holds, else to the next instruction, and change nothing else. JLINK writes its own address plus 4 to q7 and goes to its own address plus 4 times its offset; JLINKR writes its own address plus 4 to rd and goes to rs1 plus its immediate, rs1 read before rd is written. No window moves. -/
def branchesAndJumps : Prop :=
  ∀ (s : State),
    branchTakes s .brEq (fun a b => a = b) ∧ branchTakes s .brNe (fun a b => a ≠ b) ∧
    branchTakes s .brLt (fun a b => a.toInt < b.toInt) ∧ branchTakes s .brGe (fun a b => b.toInt ≤ a.toInt) ∧
    branchTakes s .brLtu (fun a b => a.toNat < b.toNat) ∧ branchTakes s .brGeu (fun a b => b.toNat ≤ a.toNat) ∧
    (∀ c off, s.ready c [39#6] [] = true →
      let k := s.cob c
      exec (.jlink c off) s = .next (s.setCob c { k.setInt 39#6 (k.pc + 4) with pc := k.pc + 4 * off.signExtend 64 })) ∧
    (∀ c rd rs1 imm, s.ready c [rd, rs1] [] = true →
      let k := s.cob c
      exec (.jlinkr c rd rs1 imm) s =
        .next (s.setCob c { k.setInt rd (k.pc + 4) with pc := k.int rs1 + imm.signExtend 64 }))

/-- At a ready cobble LDHI writes its 20-bit constant shifted left by 12, sign-extended to 64 bits, to rd; PCHI writes its own address plus that value. Both move on by 4 and change nothing else. At a ready cobble BR.EQ, BR.NE, BR.LT, BR.GE, BR.LTU and BR.GEU set the program counter to their own address plus 4 times the sign-extended offset when the comparison of rs1 with rs2 holds, else to the next instruction, and change nothing else. JLINK writes its own address plus 4 to q7 and goes to its own address plus 4 times its offset; JLINKR writes its own address plus 4 to rd and goes to rs1 plus its immediate, rs1 read before rd is written. No window moves. Every clause on a command concludes that exec answers a next state. -/
def Obligations.ConstantsBranchesAndJumps : Prop :=
  highConstants ∧ branchesAndJumps

/-- Outside the trap window, at a ready cobble with HELD below 4 and p7 of the new window awaiting no load, WCALL and WCALLR (rd field 0) advance TOP modulo 5, add 1 to HELD and DEPTH, write their own address plus 4 to p7 of the new window, which is the caller's q7, and go to their target: own address plus 4 times offset, or rs1 of the calling window plus the immediate. With HELD above 1, WRET (every field 0) goes to p7 of the current window, moves TOP back, and takes 1 from HELD and DEPTH. Nothing else changes. -/
def windowMoves : Prop :=
  ∀ (s : State) (c : Nat), let k := s.cob c
    k.tw = false → k.top < 5 → k.held < 5 →
    (∀ off, s.ready c [39#6] [] = true → k.held < 4 →
      exec (.wcall c off) s = .next (s.setCob c { k.setInt 39#6 (k.pc + 4) with
        top := (k.top + 1) % 5, held := k.held + 1, depth := k.depth + 1, pc := k.pc + 4 * off.signExtend 64 })) ∧
    (∀ rs1 imm, s.ready c [39#6, rs1] [] = true → k.held < 4 →
      exec (.wcallr c 0 rs1 imm) s = .next (s.setCob c { k.setInt 39#6 (k.pc + 4) with
        top := (k.top + 1) % 5, held := k.held + 1, depth := k.depth + 1, pc := k.int rs1 + imm.signExtend 64 })) ∧
    (s.ready c [23#6] [] = true → 1 < k.held →
      exec (.wret c 0) s = .next (s.setCob c { k with
        top := (k.top + 4) % 5, held := k.held - 1, depth := k.depth - 1, pc := k.int 23#6 }))

/-- Outside the trap window, at a ready cobble, WCALL and WCALLR with HELD = 4 raise WINDOW_OVERFLOW: MOVE becomes the oldest resident window TOP - HELD + 1 modulo 5 and HELD falls by 1. WRET with HELD = 1 raises WINDOW_UNDERFLOW: MOVE becomes TOP - 1 modulo 5 and HELD rises by 1. In both cases TOP, DEPTH and every register stay, TRPC holds the instruction's address, TRCAUSE the code 1 or 2, TRINFO and TRLPC 0, TRSTAT the old STATUS, TW is 1, IE is 0, and execution goes on at TRBASE + 64 times the code. -/
def windowOverflowAndUnderflow : Prop :=
  ∀ (s : State) (c : Nat), let k := s.cob c
    k.tw = false → k.top < 5 →
    (∀ i, ((∃ off, i = Instr.wcall c off ∧ s.ready c [] [] = true) ∨
        (∃ rs1 imm, i = Instr.wcallr c 0 rs1 imm ∧ s.ready c [rs1] [] = true)) → k.held = 4 →
      ∃ t, exec i s = .next t ∧ t.cob c = { k with
        move := (k.top + 2) % 5, held := 3, trpc := k.pc, trcause := 1, trinfo := 0, trlpc := 0, trstat := k.status,
        tw := true, ie := false, hold := .none, feSince := none, pc := k.trbase + 64 } ∧ otherCobbles c s t ∧ sameMemory s t) ∧
    (s.ready c [23#6] [] = true → k.held = 1 →
      ∃ t, exec (.wret c 0) s = .next t ∧ t.cob c = { k with
        move := (k.top + 4) % 5, held := 2, trpc := k.pc, trcause := 2, trinfo := 0, trlpc := 0, trstat := k.status,
        tw := true, ie := false, hold := .none, feSince := none, pc := k.trbase + 128 } ∧ otherCobbles c s t ∧ sameMemory s t)

/-- Outside the trap window, at a ready cobble with HELD below 4 and p7 of the new window awaiting no load, WCALL and WCALLR (rd field 0) advance TOP modulo 5, add 1 to HELD and DEPTH, write their own address plus 4 to p7 of the new window, which is the caller's q7, and go to their target: own address plus 4 times offset, or rs1 of the calling window plus the immediate. With HELD above 1, WRET (every field 0) goes to p7 of the current window, moves TOP back, and takes 1 from HELD and DEPTH. Nothing else changes. Outside the trap window, at a ready cobble, WCALL and WCALLR with HELD = 4 raise WINDOW_OVERFLOW: MOVE becomes the oldest resident window TOP - HELD + 1 modulo 5 and HELD falls by 1. WRET with HELD = 1 raises WINDOW_UNDERFLOW: MOVE becomes TOP - 1 modulo 5 and HELD rises by 1. In both cases TOP, DEPTH and every register stay, TRPC holds the instruction's address, TRCAUSE the code 1 or 2, TRINFO and TRLPC 0, TRSTAT the old STATUS, TW is 1, IE is 0, and execution goes on at TRBASE + 64 times the code. Every clause on a command concludes that exec answers a next state. -/
def Obligations.WindowsOpenCloseOverflowAndUnderflow : Prop :=
  windowMoves ∧ windowOverflowAndUnderflow

/-- At a ready cobble: FENCE moves on when the store buffer is empty, no load or posted store is outstanding, no deferred trap waits and, in a control cobble, no Piazza ISA instruction is in flight, and otherwise holds, changing nothing. PHASE imm5 writes PHASEID and the island's current phase. WAIT moves on while an enabled interrupt is pending and otherwise holds issue, counting as waiting. EXIT, under the condition of FENCE, ends the cobble's part of the context with its program counter and registers kept; otherwise it holds. Model choice: log 49, 100. Every clause on a command concludes that exec answers a next state. -/
def Obligations.SystemControlCompletes : Prop :=
  ∀ (s : State) (c : Nat), s.ready c [0#6] [] = true →
    let k := s.cob c
    let done := k.stbuf = [] ∧ k.loads = [] ∧ k.stores = [] ∧ k.deferred = [] ∧ (k.pz = true → (s.slotOf c).fly = [])
    (done → exec (.fence c 0 0) s = s.put c k) ∧ (¬ done → exec (.fence c 0 0) s = .next s) ∧
    (∀ imm : BitVec 14, imm.toNat < 32 → ∃ t, exec (.phase c 0 imm) s = .next t ∧
      t.cob c = { k with phaseid := imm.setWidth 5, pc := k.pc + 4 } ∧ (t.isl (islOf c)).phase = imm.setWidth 5 ∧
      otherCobbles c s t ∧ sameMemory s t) ∧
    ((s.dueBit c).isSome = true → exec (.wait c 0 0) s = s.put c k) ∧
    ((s.dueBit c).isSome = false → exec (.wait c 0 0) s = .next (s.setCob c { k with hold := .waitInt })) ∧
    (done → ∃ t, exec (.exit c 0 0) s = .next t ∧ t.cob c = { k with run := .exited } ∧ otherCobbles c s t ∧
      sameMemory s t) ∧
    (¬ done → exec (.exit c 0 0) s = .next s)

/-- At a ready cobble outside the trap window, TRAP imm raises SOFTWARE (cause 0x0B) with the immediate in TRINFO, and BRK, in a partition whose debug is locked, raises BREAKPOINT (0x0A) with the instruction word in TRINFO: TRPC takes the instruction's address, TRLPC 0, TRSTAT the old STATUS, TW becomes 1, IE 0, and the program counter TRBASE + 64 times the cause; registers, windows, flags, the other cobbles and memory stay. In the trap window HRET n (n = 0 or 1) restores IE from TRSTAT, clears TW and goes on at TRPC + 4 n, changing nothing else; outside it HRET raises ILLEGAL_INSTRUCTION (cause 3). -/
def trapEntryAndReturn : Prop :=
  ∀ (s : State) (c : Nat) (imm : BitVec 14), s.ready c [0#6] [] = true →
    let k := s.cob c
    let entered := fun (cause : Nat) (info : W64) => { k with
      trpc := k.pc, trcause := BitVec.ofNat 64 cause, trinfo := info, trlpc := 0, trstat := k.status, tw := true,
      ie := false, hold := .none, feSince := none, pc := k.trbase + BitVec.ofNat 64 (64 * cause) }
    (k.tw = false →
      (∃ t, exec (.trap c 0 imm) s = .next t ∧ t.cob c = entered 0xB (imm.zeroExtend 64) ∧ otherCobbles c s t ∧
        sameMemory s t) ∧
      ((s.partn (s.partOfBlk (blkOf c))).debug = false →
        ∃ t, exec (.brk c 0 0) s = .next t ∧ t.cob c = entered 0xA 0xEC500000#64 ∧ otherCobbles c s t ∧ sameMemory s t) ∧
      (imm.toNat < 2 → ∃ t, exec (.hret c 0 imm) s = .next t ∧ (t.cob c).trcause = 3 ∧ (t.cob c).trpc = k.pc)) ∧
    (k.tw = true → imm.toNat < 2 →
      exec (.hret c 0 imm) s = .next (s.setCob c { k with
        ie := k.trstat.getLsbD 0, tw := false, pc := k.trpc + 4 * imm.zeroExtend 64 }))

/-- At a ready cobble whose partition's debug is unlocked, BRK halts the cobble with its program counter after the BRK; no trap is taken and no register or control register changes, no other cobble changes and memory stays. -/
def breakpointHaltsUnderDebug : Prop :=
  ∀ (s : State) (c : Nat), s.ready c [0#6] [] = true → (s.partn (s.partOfBlk (blkOf c))).debug = true →
    ∃ t, exec (.brk c 0 0) s = .next t ∧ t.cob c = { s.cob c with pc := (s.cob c).pc + 4, halted := true } ∧
      otherCobbles c s t ∧ sameMemory s t

/-- In the trap window, at a ready cobble, WCALL, WCALLR, WRET and TRAP do not have their own effect: the cobble's context is marked failed, it stops issuing at the instruction with every register and control register unchanged, WINDOW_EXHAUSTED (event 7) of its block is in the log engine's slots or counted in the block's open slot, and every other cobble and all memory stay. -/
def trapsInTheTrapWindowAreFatal : Prop :=
  ∀ (s : State) (c : Nat) (i : Instr), (s.cob c).tw = true →
    ((∃ off, i = .wcall c off ∧ s.ready c [] [] = true) ∨
     (∃ rs1 imm, i = .wcallr c 0 rs1 imm ∧ s.ready c [0#6, rs1] [] = true) ∨
     (i = .wret c 0 ∧ s.ready c [23#6] [] = true) ∨
     (∃ imm, i = .trap c 0 imm ∧ s.ready c [0#6] [] = true)) →
    ∃ t, exec i s = .next t ∧ t.cob c = { s.cob c with run := .failed, hold := .none, feSince := none } ∧ otherCobbles c s t ∧
      sameMemory s t ∧ t.logSlots.any (fun l => l.kind == 2 && l.id == blkOf c) = true

/-- At a ready cobble outside the trap window, TRAP imm raises SOFTWARE (cause 0x0B) with the immediate in TRINFO, and BRK, in a partition whose debug is locked, raises BREAKPOINT (0x0A) with the instruction word in TRINFO: TRPC takes the instruction's address, TRLPC 0, TRSTAT the old STATUS, TW becomes 1, IE 0, and the program counter TRBASE + 64 times the cause; registers, windows, flags, the other cobbles and memory stay. In the trap window HRET n (n = 0 or 1) restores IE from TRSTAT, clears TW and goes on at TRPC + 4 n, changing nothing else; outside it HRET raises ILLEGAL_INSTRUCTION (cause 3). At a ready cobble whose partition's debug is unlocked, BRK halts the cobble with its program counter after the BRK; no trap is taken and no register or control register changes, no other cobble changes and memory stays. In the trap window, at a ready cobble, WCALL, WCALLR, WRET and TRAP do not have their own effect: the cobble's context is marked failed, it stops issuing at the instruction with every register and control register unchanged, WINDOW_EXHAUSTED (event 7) of its block is in the log engine's slots or counted in the block's open slot, and every other cobble and all memory stay. Model choice: log 49. Every clause on a command concludes that exec answers a next state. -/
def Obligations.TrapEntryReturnAndFatalTraps : Prop :=
  trapEntryAndReturn ∧ breakpointHaltsUnderDebug ∧ trapsInTheTrapWindowAreFatal

/-- For every integer register form, at a cobble that may issue: a program counter outside the code region or not a multiple of 4 raises ACCESS_FAULT (5) with the program counter in TRINFO; otherwise a reserved register number raises ILLEGAL_INSTRUCTION (3); otherwise, while a register that the instruction names is the destination of an outstanding load, the instruction holds and the state stays. With an interrupt due at the same boundary, those two traps are still taken, the synchronous trap first; an instruction that raises none does not issue and the state stays. At a cobble whose next instruction does not reach issue, with no WAIT to end, nothing changes. Shown for ADD, whose operand check is that of every integer instruction. Model choice: log 49. Every clause on a command concludes that exec answers a next state. -/
def Obligations.IssueTrapsAndHolds : Prop :=
  ∀ (s : State) (c : Nat) (w : Bool) (rd rs1 rs2 : BitVec 6), c < nCobbles →
    let k := s.cob c
    let named := [rd, rs1, rs2]
    (s.mayIssue c = true → k.badFetch = true →
      exec (.add c w rd rs1 rs2) s = .next (s.trap c 5 k.pc)) ∧
    (s.mayIssue c = true → k.badFetch = false → (∃ f ∈ named, regIdx k f = none) →
      exec (.add c w rd rs1 rs2) s =
        .next (s.trap c 3 ((wRR 0 rd rs1 rs2 (if w then 64 else 0)).zeroExtend 64))) ∧
    (s.mayIssue c = true → k.badFetch = false → (∀ f ∈ named, regIdx k f ≠ none) →
      (∃ f ∈ named, ∃ i, regIdx k f = some i ∧ k.intBusy i = true) → exec (.add c w rd rs1 rs2) s = .next s) ∧
    (s.mayIssue c = true → s.intDue c = true → k.badFetch = false → (∀ f ∈ named, regIdx k f ≠ none) →
      exec (.add c w rd rs1 rs2) s = .next s) ∧
    (s.mayIssue c = false → k.hold ≠ .waitInt → exec (.add c w rd rs1 rs2) s = .next s)

/-- At a running core in service, outside the trap window with IE = 1, with no deferred trap due and nothing held: INTERRUPT_ENTRY takes the lowest pending interrupt that IENABLE enables. TIMER, SIGNAL, RSTERR and PFAULT enter with causes 0x10 to 0x13; TRPC holds the instruction that has not yet issued, TRINFO is 0, the watched object, RSTADDR or 0; STATUS is saved, TW is 1, IE 0. With none enabled and pending, or with IE = 0 or TW = 1, INTERRUPT_ENTRY changes nothing there. No pending bit is lost by the entry. -/
def pendingInterruptTaken : Prop :=
  ∀ (s : State) (c : Nat), c < nCobbles →
    let k := s.cob c
    s.atBoundary c = true → k.hold = .none → k.deferred = [] →
    (k.ie = true → k.tw = false → ∀ n, n < 4 →
      (s.ipend c &&& k.ienable).getLsbD n = true → (∀ m, m < n → (s.ipend c &&& k.ienable).getLsbD m = false) →
      ∃ t, exec (.interruptEntry c) s = .next t ∧ t.cob c = { k with
          trpc := k.pc, trcause := BitVec.ofNat 64 (16 + n),
          trinfo := if n = 1 then BitVec.ofNat 64 k.swObj else if n = 2 then k.rstCount ++ k.rstAddr else 0,
          trlpc := 0, trstat := k.status, tw := true, ie := false, hold := .none, feSince := none,
          pc := k.trbase + BitVec.ofNat 64 (64 * (16 + n)) } ∧
        t.ipend c = s.ipend c ∧ otherCobbles c s t ∧ sameMemory s t) ∧
    (k.ie = false ∨ k.tw = true ∨ s.ipend c &&& k.ienable = 0 → exec (.interruptEntry c) s = .next s)

/-- At a running core in service whose first deferred trap is due, DEFERRED_TRAP takes it: a load issued with TW = 0 and failing while TW = 0 enters DATA_POISON or REMOTE_FAULT (the recorded cause) with TRPC at the instruction that would have issued next, TRINFO its address and TRLPC its saved value (bit 63 set), and the trap leaves the list. A deferred trap of a load issued in the trap window, due there, fails the context (WINDOW_EXHAUSTED). With none due, nothing changes; one issued outside the trap window waits while TW = 1. -/
def deferredTrapsInOrder : Prop :=
  ∀ (s : State) (c : Nat) (d : Deferred) (rest : List Deferred), c < nCobbles →
    let k := s.cob c
    s.atBoundary c = true → k.hold = .none →
    (k.deferred = d :: rest → k.tw = false → d.tw = false →
      ∃ t, exec (.deferredTrap c) s = .next t ∧ t.cob c = { k with
        deferred := rest, trpc := k.pc, trcause := BitVec.ofNat 64 d.cause, trinfo := d.info, trlpc := d.lpc,
        trstat := k.status, tw := true, ie := false, hold := .none, feSince := none, pc := k.trbase + BitVec.ofNat 64 (64 * d.cause),
        move := (t.cob c).move, held := (t.cob c).held }) ∧
    (k.deferred = d :: rest → k.tw = true → d.tw = true →
      ∃ t, exec (.deferredTrap c) s = .next t ∧ (t.cob c).run = .failed ∧ (t.cob c).deferred = rest) ∧
    (k.tw = true → (∀ e ∈ k.deferred, e.tw = false) → exec (.deferredTrap c) s = .next s)

/-- IPEND.TIMER is 1 exactly while the island's shadow of package time has reached TIMECMP. At a core held in WAIT with the timer enabled and pending, TIMER_INTERRUPT ends the WAIT: nothing is held and the program counter is after the WAIT; while no enabled interrupt is pending it changes nothing. -/
def waitEndsAtTheTimer : Prop :=
  ∀ (s : State) (c : Nat), c < nCobbles → (s.cob c).hold = .waitInt →
    ((s.ipend c).getLsbD 0 = true ↔ (s.cob c).timecmp ≤ s.shadow (islOf c)) ∧
    ((s.ipend c).getLsbD 0 = true → (s.cob c).ienable.getLsbD 0 = true →
      ∃ t, exec (.timerInterrupt c) s = .next t ∧ t.cob c = { s.cob c with pc := (s.cob c).pc + 4, hold := .none } ∧
        otherCobbles c s t ∧ sameMemory s t) ∧
    (s.ipend c &&& (s.cob c).ienable = 0 → exec (.timerInterrupt c) s = .next s)

/-- At a running core in service, outside the trap window with IE = 1, with no deferred trap due and nothing held: INTERRUPT_ENTRY takes the lowest pending interrupt that IENABLE enables. TIMER, SIGNAL, RSTERR and PFAULT enter with causes 0x10 to 0x13; TRPC holds the instruction that has not yet issued, TRINFO is 0, the watched object, RSTADDR or 0; STATUS is saved, TW is 1, IE 0. With none enabled and pending, or with IE = 0 or TW = 1, INTERRUPT_ENTRY changes nothing there. No pending bit is lost by the entry. At a running core in service whose first deferred trap is due, DEFERRED_TRAP takes it: a load issued with TW = 0 and failing while TW = 0 enters DATA_POISON or REMOTE_FAULT (the recorded cause) with TRPC at the instruction that would have issued next, TRINFO its address and TRLPC its saved value (bit 63 set), and the trap leaves the list. A deferred trap of a load issued in the trap window, due there, fails the context (WINDOW_EXHAUSTED). With none due, nothing changes; one issued outside the trap window waits while TW = 1. IPEND.TIMER is 1 exactly while the island's shadow of package time has reached TIMECMP. At a core held in WAIT with the timer enabled and pending, TIMER_INTERRUPT ends the WAIT: nothing is held and the program counter is after the WAIT; while no enabled interrupt is pending it changes nothing. Model choice: log 49, 51. Every clause on a command concludes that exec answers a next state. -/
def Obligations.InterruptsAndDeferredTrapsAreTaken : Prop :=
  pendingInterruptTaken ∧ deferredTrapsInOrder ∧ waitEndsAtTheTimer

/-- At a ready cobble with no Piazza ISA instruction in flight, CRD of a number in the CSR map writes the register's value to rd and moves on; a read of RSTADDR (0x042) returns count and address and clears both, a read of PBCREC (0x093) clears it, and no other read changes a register. A number outside the map, which for a cobble whose STATUS.PZ is 0 includes the piazza's registers, raises ILLEGAL_INSTRUCTION (3) and clears nothing. Every clause on a command concludes that exec answers a next state. -/
def Obligations.CsrReadsReturnAndClear : Prop :=
  ∀ (s : State) (c : Nat) (rd : BitVec 6) (n : BitVec 12), s.ready c [rd, 0#6] [] = true → (s.slotOf c).fly = [] →
    let k := s.cob c
    (∀ v, s.csrVal c n.toNat = some v → n ≠ 0x042#12 → n ≠ 0x093#12 →
      exec (.crd c rd 0 n) s = s.put c (k.setInt rd v)) ∧
    (∀ v, s.csrVal c n.toNat = some v → n = 0x042#12 → v = k.rstCount ++ k.rstAddr ∧
      exec (.crd c rd 0 n) s = s.put c ({ k with rstCount := 0, rstAddr := 0 }.setInt rd v)) ∧
    (∀ v, s.csrVal c n.toNat = some v → n = 0x093#12 →
      exec (.crd c rd 0 n) s = s.put c ({ k with pbcrec := 0 }.setInt rd v)) ∧
    (s.csrVal c n.toNat = none →
      exec (.crd c rd 0 n) s = .next (s.trap c 3 ((wCsr 0 rd 0 n).zeroExtend 64))) ∧
    (k.pz = false → n.toNat ∈ [0x090, 0x091, 0x092, 0x093, 0x094, 0x095, 0x096, 0x098, 0x099, 0x09A, 0x09B] →
      s.csrVal c n.toNat = none)

/-- Writable bits of a cobble's control and status registers (Tables 04-8 to 04-13 and 05-6). -/
def csrMasks (pz : Bool) : List (BitVec 12 × W64) :=
  [(0x000, 7), (0x001, 0x1F), (0x010, 1), (0x020, ~~~0x7FF), (0x021, BitVec.allOnes 64), (0x024, BitVec.allOnes 64),
   (0x031, BitVec.allOnes 64), (0x032, BitVec.allOnes 64), (0x040, if pz then 15 else 7), (0x072, 0xFF)]

/-- At a ready cobble, for FPCR, FPFLAGS, STATUS, TRBASE, TRPC, TRSTAT, TIMECMP, FEWAIT, IENABLE and SVSCALE with their masks of writable bits: after CWR the register reads as rs1 in the writable bits and as before in the others; after CSET the writable bits that rs1 names are 1; after CCLR they are 0. The program counter moves on by 4; integer and f registers, the other cobbles and memory stay. CWR, CSET and CCLR of a register without a writable field (WINSTATE, TRCAUSE, TRINFO, TRLPC, PKTIME, RSTADDR, PHASEID, COBID, CODELIM, TSTATE) raise ACCESS_FAULT (5) with the register number in TRINFO. CWR of IPEND with bit 2 clears RSTERR, without it changes nothing. Every clause on a command concludes that exec answers a next state. -/
def Obligations.CsrWritesChangeWritableFieldsOnly : Prop :=
  ∀ (s : State) (c : Nat) (rs1 : BitVec 6), s.ready c [0#6, rs1] [] = true → (s.slotOf c).fly = [] →
    let k := s.cob c
    let x := k.int rs1
    k.trbase &&& 0x7FF = 0 → (k.pz = true ∨ k.ienable.getLsbD 3 = false) →
    (∀ n m v, (n, m) ∈ csrMasks k.pz → s.csrVal c n.toNat = some v →
      ∀ i w, (i = Instr.cwr c 0 rs1 n ∧ w = (v &&& ~~~m) ||| (x &&& m)) ∨ (i = Instr.cset c 0 rs1 n ∧ w = v ||| (x &&& m)) ∨
          (i = Instr.cclr c 0 rs1 n ∧ w = v &&& ~~~(x &&& m)) →
        ∃ t, exec i s = .next t ∧ t.csrVal c n.toNat = some w ∧ (t.cob c).pc = k.pc + 4 ∧ (t.cob c).ints = k.ints ∧
          (t.cob c).fps = k.fps ∧ otherCobbles c s t ∧ sameMemory s t) ∧
    (∀ n ∈ ([0x011, 0x022, 0x023, 0x025, 0x030, 0x042, 0x050, 0x060, 0x061, 0x073] : List (BitVec 12)),
      ∀ i, i = Instr.cwr c 0 rs1 n ∨ i = Instr.cset c 0 rs1 n ∨ i = Instr.cclr c 0 rs1 n →
        exec i s = .next (s.trap c 5 (n.zeroExtend 64))) ∧
    exec (.cwr c 0 rs1 0x041) s = s.put c (if x.getLsbD 2 then { k with ipRsterr := false } else k)

/-- The register form of `n` as loaded into an integer register: sign- or zero-extended from `size` bytes. -/
def extended (size : Nat) (signed : Bool) (n : Nat) : W64 :=
  if signed then (BitVec.ofNat (8 * size) n).signExtend 64 else BitVec.ofNat 64 n

/-- A private load at a ready cobble: `fill` writes the loaded number to the destination. -/
def privateLoad (s : State) (i : Instr) (c size : Nat) (ea : W64) (fill : Cobble → Nat → Cobble) : Prop :=
  let k := s.cob c
  let off := ea.toNat
  (off < 2 ^ 14 → (k.pz = true → off < k.plmbase.toNat) → off % size = 0 →
    (k.stbuf.all (fun e => !e.overlaps off size) = true →
      (∀ r ∈ rowsOf (scrAddr c off) size, lget false s.psn (rowOf r) = false ∧ lget 0 s.upset (rowOf r) = 0) →
      exec i s = s.put c (fill k (ofBytes (s.rdN (scrAddr c off) size)))) ∧
    (∀ e es, k.stbuf = es ++ [e] → e.covers off size = true → 0 < e.size →
      exec i s = s.put c (fill k (e.data.toNat / 2 ^ (8 * (off - e.off)) % 2 ^ (8 * size)))) ∧
    (k.stbuf = [] → (∃ r ∈ rowsOf (scrAddr c off) size, lget false s.psn (rowOf r) = true) →
      ∃ t, exec i s = .next (t.trap c 6 ea) ∧ t.cobs = s.cobs ∧ sameMemory s t)) ∧
  (s.target c ea false = .bad → exec i s = .next (s.trap c 5 ea)) ∧
  (s.target c ea false ≠ .bad → s.mustHold c (s.target c ea false) = false → off % size ≠ 0 →
    exec i s = .next (s.trap c 4 ea)) ∧
  (s.target c ea false ≠ .bad → s.mustHold c (s.target c ea false) = true → exec i s = .next s)

/-- At a ready cobble every load whose address lies in the own scratchpad (tag 0, below LMBASE in a control cobble) and is aligned to its size completes: with no store-buffer entry over its bytes and clean rows it writes the little-endian value read there, sign-extended for LD.B, LD.H, LD.W, zero-extended for LD.BU, LD.HU, LD.WU, whole for LD.D and FLD.D, with ones above for FLD.S, to its destination and moves on; nothing else changes. When the youngest overlapping entry covers the load, the value comes from that entry. A poisoned row raises DATA_POISON (6), an address outside Table 04-5 ACCESS_FAULT (5), otherwise a misaligned one MISALIGNED (4), each with the address in TRINFO; while the block's cache split changes, a load in a quarter that changes its role, or of package memory, holds and the state stays. Every clause on a command concludes that exec answers a next state. -/
def Obligations.PrivateLoads : Prop :=
  ∀ (s : State) (c : Nat) (rd rs1 : BitVec 6) (imm : BitVec 12),
    let k := s.cob c
    let ea := k.int rs1 + imm.signExtend 64
    (s.ready c [rd, rs1] [] = true →
      privateLoad s (.ldB c rd rs1 imm) c 1 ea (fun k n => k.setInt rd (extended 1 true n)) ∧
      privateLoad s (.ldBu c rd rs1 imm) c 1 ea (fun k n => k.setInt rd (extended 1 false n)) ∧
      privateLoad s (.ldH c rd rs1 imm) c 2 ea (fun k n => k.setInt rd (extended 2 true n)) ∧
      privateLoad s (.ldHu c rd rs1 imm) c 2 ea (fun k n => k.setInt rd (extended 2 false n)) ∧
      privateLoad s (.ldW c rd rs1 imm) c 4 ea (fun k n => k.setInt rd (extended 4 true n)) ∧
      privateLoad s (.ldWu c rd rs1 imm) c 4 ea (fun k n => k.setInt rd (extended 4 false n)) ∧
      privateLoad s (.ldD c rd rs1 imm) c 8 ea (fun k n => k.setInt rd (BitVec.ofNat 64 n))) ∧
    (s.ready c [rs1] [rd] = true →
      privateLoad s (.fldS c rd rs1 imm) c 4 ea (fun k n => k.setFp rd (0xFFFFFFFF#32 ++ BitVec.ofNat 32 n)) ∧
      privateLoad s (.fldD c rd rs1 imm) c 8 ea (fun k n => k.setFp rd (BitVec.ofNat 64 n)))

/-- A store at a ready cobble: the entry it pushes, and the faults. -/
def privateStore (s : State) (i : Instr) (c size : Nat) (data ea : W64) : Prop :=
  let k := s.cob c
  let off := ea.toNat
  let e : StEntry := { off := off, size := size, data := data }
  (off < 2 ^ 14 → k.codelim ≤ off → (k.pz = true → off < k.plmbase.toNat) → off % size = 0 →
    (k.stbuf.length < 4 → exec i s = .next (s.setCob c { k with stbuf := k.stbuf ++ [e], pc := k.pc + 4 })) ∧
    (∀ f fs, k.stbuf = f :: fs → 4 ≤ k.stbuf.length → Memory.wf s.mem = true →
      ∃ t, exec i s = .next t ∧ (t.cob c).stbuf = fs ++ [e] ∧ (t.cob c).pc = k.pc + 4 ∧ (t.cob c).ints = k.ints ∧
        otherCobbles c s t ∧
        ∀ a, t.rd8 a = if scrAddr c f.off ≤ a ∧ a < scrAddr c f.off + f.size then
          BitVec.ofNat 8 (f.data.toNat / 256 ^ (a - scrAddr c f.off)) else s.rd8 a)) ∧
  (s.target c ea true = .bad → exec i s = .next (s.trap c 5 ea)) ∧
  (s.target c ea true ≠ .bad → s.mustHold c (s.target c ea true) = false → off % size ≠ 0 →
    exec i s = .next (s.trap c 4 ea)) ∧
  (s.target c ea true ≠ .bad → s.mustHold c (s.target c ea true) = true → exec i s = .next s)

/-- At a ready cobble every store to the own scratchpad at or above CODELIM, aligned to its size, enters the store buffer as its youngest entry and moves on; with fewer than four entries no byte of memory changes; with four the oldest entry leaves the buffer and its bytes are written. A store below CODELIM or outside Table 04-5 raises ACCESS_FAULT (5), otherwise a misaligned one MISALIGNED (4), with the address in TRINFO; while the block's cache split changes, a store in a quarter that changes its role, or of package memory, holds and the state stays. STORE_BUFFER_WRITE takes the oldest entry out of the buffer and writes its bytes and no other byte of memory. Every clause on a command concludes that exec answers a next state. -/
def Obligations.PrivateStores : Prop :=
  ∀ (s : State) (c : Nat) (rs2 rs1 : BitVec 6) (imm : BitVec 12),
    let k := s.cob c
    let ea := k.int rs1 + imm.signExtend 64
    (s.ready c [rs2, rs1] [] = true →
      privateStore s (.stB c rs2 rs1 imm) c 1 (k.int rs2) ea ∧ privateStore s (.stH c rs2 rs1 imm) c 2 (k.int rs2) ea ∧
      privateStore s (.stW c rs2 rs1 imm) c 4 (k.int rs2) ea ∧ privateStore s (.stD c rs2 rs1 imm) c 8 (k.int rs2) ea) ∧
    (s.ready c [rs1] [rs2] = true →
      privateStore s (.fstS c rs2 rs1 imm) c 4 (k.fp rs2) ea ∧ privateStore s (.fstD c rs2 rs1 imm) c 8 (k.fp rs2) ea) ∧
    (∀ f fs, c < nCobbles → k.stbuf = f :: fs → Memory.wf s.mem = true →
      ∃ t, exec (.storeBufferWrite c) s = .next t ∧ t.cob c = { k with stbuf := fs } ∧ otherCobbles c s t ∧
        ∀ a, t.rd8 a = if scrAddr c f.off ≤ a ∧ a < scrAddr c f.off + f.size then
          BitVec.ofNat 8 (f.data.toNat / 256 ^ (a - scrAddr c f.off)) else s.rd8 a)

/-- At a ready cobble outside a piazza, an aligned LD.D or ST.D whose address names the own block store below its cache quarters, with fewer than 4 loads or 8 stores outstanding, room in the bank's queue and no change of the cache split: the instruction moves on, one more load or store is outstanding, and the request is the youngest of its bank's queue; registers and memory stay. With no room the cobble holds issue at the instruction and the request waits at its port. BLOCK_STORE_BANK_SERVICE performs the bank's oldest request: a read of a clean double-word answers its bytes, and the answer waits at the requesting cobble. GLOBAL_LOAD_ANSWER then writes an OK answer's value to the destination and the load is no longer outstanding; a failed one writes nothing and waits as a deferred trap. POSTED_STORE_ACK retires an accepted store; POSTED_STORE_REFUSED retires a refused one, sets RSTERR, counts it and keeps the first address. Model choice: log 8. Every clause on a command concludes that exec answers a next state. -/
def Obligations.BlockStoreAccessesAreQueuedAndAnswered : Prop :=
  ∀ (s : State) (c : Nat), c < nCobbles →
    let k := s.cob c
    let b := blkOf c
    (∀ rd rs1 imm (off : Nat), s.ready c [rd, rs1] [] = true →
      (k.int rs1 + imm.signExtend 64).toNat = 2 ^ 56 + off → off < cacheFrom (s.blk b).nq → off % 8 = 0 →
      s.pzActive b = false → (s.blk b).nq = (s.blk b).nqNew → k.loads.length < 4 → (s.blk b).bankRoom off = false →
      ∃ t tag dest, exec (.ldD c rd rs1 imm) s = .next t ∧ regIdx k rd = some dest ∧
        (let p := PendLoad.mk tag (.int dest) 8 false (k.int rs1 + imm.signExtend 64) k.pc k.tw
         t.cob c = { k with nextTag := (t.cob c).nextTag, hold := .adm (some p) none }) ∧ sameMemory s t ∧
        ∃ a, (t.blk b).waitq = (s.blk b).waitq ++ [a] ∧ (t.blk b).bankq = (s.blk b).bankq ∧ a.kind = .rd ∧ a.off = off ∧
          a.sport = c % 256 ∧ a.tag = tag) ∧
    (∀ rd rs1 imm (off : Nat), s.ready c [rd, rs1] [] = true →
      (k.int rs1 + imm.signExtend 64).toNat = 2 ^ 56 + off → off < cacheFrom (s.blk b).nq → off % 8 = 0 →
      s.pzActive b = false → (s.blk b).bankRoom off = true → (s.blk b).nq = (s.blk b).nqNew →
      (k.loads.length < 4 → ∃ t tag dest, exec (.ldD c rd rs1 imm) s = .next t ∧ (t.cob c).pc = k.pc + 4 ∧
        (t.cob c).ints = k.ints ∧
        (t.cob c).loads = k.loads ++ [PendLoad.mk tag (.int dest) 8 false (k.int rs1 + imm.signExtend 64) k.pc k.tw] ∧
        regIdx k rd = some dest ∧ sameMemory s t ∧
        ∃ a, lget [] (t.blk b).bankq (off / 8 % 64) = lget [] (s.blk b).bankq (off / 8 % 64) ++ [a] ∧ a.kind = .rd ∧
          a.space = 0 ∧ a.off = off ∧ a.size = 8 ∧ a.sblk = b ∧ a.sport = c % 256 ∧ a.tag = tag) ∧
      (k.stores.length < 8 → ∃ t tag, exec (.stD c rd rs1 imm) s = .next t ∧ (t.cob c).pc = k.pc + 4 ∧
        (t.cob c).ints = k.ints ∧
        (t.cob c).stores = k.stores ++ [{ tag := tag, addr := k.int rs1 + imm.signExtend 64 }] ∧ sameMemory s t ∧
        ∃ a, lget [] (t.blk b).bankq (off / 8 % 64) = lget [] (s.blk b).bankq (off / 8 % 64) ++ [a] ∧ a.kind = .wr ∧
          a.space = 0 ∧ a.off = off ∧ a.data = toBytes 8 (k.int rd).toNat ∧ a.mask = 255)) ∧
    (∀ bank a rest, (s.isl (islOfBlk b)).brown = false → canonFrom [] 0 (s.blk b).bankq = true →
      lget [] (s.blk b).bankq bank = a :: rest → a.kind = .rd → a.space = 0 → a.remote = false → a.sblk = b →
      a.sport = c % 256 → a.job = 0 → k.goneTags = [] → (s.blk b).gone = [] → k.stores = [] → (s.blk b).waitq = [] →
      (∀ r ∈ rowsOf (bsAddr b a.off) a.size, lget false s.psn (rowOf r) = false ∧ lget 0 s.upset (rowOf r) = 0) →
      ∃ t, exec (.blockStoreBankService b bank) s = .next t ∧ lget [] (t.blk b).bankq bank = rest ∧ sameMemory s t ∧
        (t.cob c).ans = k.ans ++ [{ sport := c % 256, tag := a.tag, status := 0, data := s.rdN (bsAddr b a.off) a.size }]) ∧
    (∀ a rest l, k.hold = .none → k.ans = a :: rest → k.loads = [l] → l.tag = a.tag →
      (a.status = 0 → ∃ t, exec (.globalLoadAnswer c) s = .next t ∧ sameMemory s t ∧ otherCobbles c s t ∧
        t.cob c = { k with ans := rest, loads := [] }.setDest l.dest (loadValue l.dest l.size l.signed a.data)) ∧
      (a.status ≠ 0 → exec (.globalLoadAnswer c) s = .next (s.setCob c { k with
        ans := rest, loads := [],
        deferred := k.deferred ++
          [Deferred.mk (if a.status = 4 then 6 else 9) l.addr (l.pc ||| 0x8000000000000000#64) l.tw] }))) ∧
    (∀ a p, k.stAns = [a] → k.stores = [p] → p.tag = a.tag →
      (a.status = 0 → exec (.postedStoreAck c) s = .next (s.setCob c { k with stAns := [], stores := [] })) ∧
      (a.status ≠ 0 → exec (.postedStoreRefused c) s = .next (s.setCob c { k with
        stAns := [], stores := [], ipRsterr := true,
        rstCount := if k.rstCount = 0xFF then 0xFF else k.rstCount + 1,
        rstAddr := if k.rstCount = 0 then p.addr.setWidth 56 else k.rstAddr })))

/-- At a ready cobble outside a piazza, for an aligned address in the own scratchpad at or above CODELIM with an empty store buffer, nothing outstanding and a clean word: on a full word LDWF and LDE write the word zero-extended to rd, LDE leaving it empty; on an empty word they hold issue at the instruction with the word unchanged. On an empty word STWE writes the low 32 bits of rs2 and leaves the word full; on a full word it holds. STF writes and leaves it full in both cases; PURGE leaves it empty and changes no byte. A completed instruction moves on, and other words' FE bits stay. A misaligned address raises MISALIGNED (4), one below CODELIM ACCESS_FAULT (5). -/
def fullEmptyInstructions : Prop :=
  ∀ (s : State) (c : Nat) (r rs1 : BitVec 6) (imm : BitVec 12), s.ready c [r, rs1] [] = true →
    let k := s.cob c
    let ea := k.int rs1 + imm.signExtend 64
    let off := ea.toNat
    let a := scrAddr c off
    k.pz = false → k.stbuf = [] → k.loads = [] → k.stores = [] → k.deferred = [] → c < nCobbles →
    (k.codelim ≤ off → off < 2 ^ 14 → off % 4 = 0 → Memory.wf s.mem = true → canonFrom false 0 s.fe = true →
      lget false s.psn (rowOf a) = false → lget 0 s.upset (rowOf a) = 0 →
      let word := BitVec.ofNat 64 (ofBytes (s.rdN a 4))
      let feSet := fun (t : State) (v : Bool) => ∀ x, t.feBit x = if x / 4 = a / 4 then v else s.feBit x
      let wrote := fun (t : State) => ∀ x, t.rd8 x =
        if a ≤ x ∧ x < a + 4 then BitVec.ofNat 8 ((k.int r).toNat / 256 ^ (x - a)) else s.rd8 x
      let kept := fun (t : State) => ∀ x, t.rd8 x = s.rd8 x
      let moved := fun (t : State) => (t.cob c).pc = k.pc + 4 ∧ (t.cob c).hold = .none
      let held := fun (t : State) => (t.cob c).pc = k.pc ∧ (∃ w, (t.cob c).hold = .fe w ∧ w.addr = ea ∧ w.phase = 0) ∧
        (t.cob c).ints = k.ints ∧ t.mem = s.mem ∧ t.fe = s.fe
      (s.feBit a = true →
        (∃ t, exec (.ldwf c r rs1 imm) s = .next t ∧ moved t ∧ (t.cob c).ints = (k.setInt r word).ints ∧ t.mem = s.mem ∧
          t.fe = s.fe) ∧
        (∃ t, exec (.lde c r rs1 imm) s = .next t ∧ moved t ∧ (t.cob c).ints = (k.setInt r word).ints ∧ kept t ∧ feSet t false) ∧
        (∃ t, exec (.stwe c r rs1 imm) s = .next t ∧ held t)) ∧
      (s.feBit a = false →
        (∃ t, exec (.ldwf c r rs1 imm) s = .next t ∧ held t) ∧ (∃ t, exec (.lde c r rs1 imm) s = .next t ∧ held t) ∧
        (∃ t, exec (.stwe c r rs1 imm) s = .next t ∧ moved t ∧ (t.cob c).ints = k.ints ∧ wrote t ∧ feSet t true)) ∧
      (∃ t, exec (.stf c r rs1 imm) s = .next t ∧ moved t ∧ (t.cob c).ints = k.ints ∧ wrote t ∧ feSet t true) ∧
      (r = 0 → ∃ t, exec (.purge c r rs1 imm) s = .next t ∧ moved t ∧ (t.cob c).ints = k.ints ∧ kept t ∧ feSet t false)) ∧
    (∀ i, i = Instr.ldwf c r rs1 imm ∨ i = .lde c r rs1 imm ∨ i = .stwe c r rs1 imm ∨ i = .stf c r rs1 imm →
      (off < 2 ^ 14 → k.codelim ≤ off → off % 4 ≠ 0 → exec i s = .next (s.trap c 4 ea)) ∧
      (off < k.codelim → off < 2 ^ 56 → exec i s = .next (s.trap c 5 ea)))

/-- At a core in service that holds an FE wait: FE_TIMEOUT, with FEWAIT not 0, FEWAIT ticks past and no request in flight, ends the wait with FE_TIMEOUT (8) and the address in TRINFO, the word and its FE bit unchanged; before that it changes nothing. An FE instruction that is held at issue, its implied FENCE not yet met, times out in the same way, counted from the tick in which it first reached issue. FE_WAKE_SCRATCHPAD of a woken LDE wait whose word is full and clean completes it: rd takes the word, the word is empty, the program counter moves on, the hold ends. FE_WAKE_BLOCK_STORE of a woken wait on the own block store, and REMOTE_FE_RESEND of a NOT_READY request, send the request again: the first joins its bank's queue, the second waits at the block's network interface, where the cobble holds until it leaves; registers and memory stay. -/
def fullEmptyWaits : Prop :=
  (∀ (s : State) (c : Nat) (start : Nat) (ea : W64), c < nCobbles →
    let k := s.cob c
    k.hold = .none → k.feSince = some (start, ea) → s.mayIssue c = true → k.tw = false → k.fewait ≠ 0 →
      start + k.fewait.toNat ≤ s.ticks →
      ∃ t, exec (.feTimeout c) s = .next t ∧ (t.cob c).hold = .none ∧ (t.cob c).trcause = 8 ∧ (t.cob c).trinfo = ea ∧
        (t.cob c).trpc = k.pc ∧ (t.cob c).tw = true ∧ sameMemory s t ∧ otherCobbles c s t) ∧
  (∀ (s : State) (c : Nat) (w : FeWait), c < nCobbles →
    let k := s.cob c
    k.hold = .fe w → s.coreUp c = true →
    (k.tw = false → k.fewait ≠ 0 → w.phase ≠ 2 → w.start + k.fewait.toNat ≤ s.ticks →
      ∃ t, exec (.feTimeout c) s = .next t ∧ (t.cob c).hold = .none ∧ (t.cob c).trcause = 8 ∧ (t.cob c).trinfo = w.addr ∧
        (t.cob c).trpc = k.pc ∧ (t.cob c).tw = true ∧ sameMemory s t ∧ otherCobbles c s t) ∧
    (k.fewait = 0 ∨ w.phase = 2 ∨ s.ticks < w.start + k.fewait.toNat → exec (.feTimeout c) s = .next s) ∧
    (w.op = .lde → w.tgt = 0 → w.phase = 1 → w.addr.toNat % 4 = 0 →
      let a := scrAddr c (w.addr.toNat % 2 ^ 14)
      s.feBit a = true → lget false s.psn (rowOf a) = false → lget 0 s.upset (rowOf a) = 0 → Memory.wf s.mem = true →
      canonFrom false 0 s.fe = true →
      ∃ t, exec (.feWakeScratchpad c) s = .next t ∧ (t.cob c).hold = .none ∧ (t.cob c).pc = k.pc + 4 ∧
        (t.cob c).ints = (k.setIntIdx w.rd (BitVec.ofNat 64 (ofBytes (s.rdN a 4)))).ints ∧ t.mem = s.mem ∧
        t.feBit a = false) ∧
    (w.tgt = 1 → w.phase = 1 → s.pzActive (blkOf c) = false → (s.blk (blkOf c)).bankRoom (w.addr.toNat % 2 ^ 21) = true →
      (s.blk (blkOf c)).nq = (s.blk (blkOf c)).nqNew →
      ∃ t, exec (.feWakeBlockStore c) s = .next t ∧ (t.cob c).hold = .fe { w with phase := 2 } ∧ (t.cob c).ints = k.ints ∧
        (t.cob c).pc = k.pc ∧ sameMemory s t) ∧
    (w.tgt = 2 → w.phase = 3 → ∀ sp blk cob off, blk ≠ blkOf c → s.target c w.addr true = .die sp blk cob off →
      ∃ t, exec (.remoteFeResend c) s = .next t ∧ (t.cob c).hold = .fe { w with phase := 4 } ∧ (t.cob c).ints = k.ints ∧
        (t.cob c).pc = k.pc ∧ sameMemory s t ∧
        ∃ p, (t.blk (blkOf c)).niq = (s.blk (blkOf c)).niq ++ [p] ∧ p.dst = blk))

/-- At a ready cobble outside a piazza, for an aligned address in the own scratchpad at or above CODELIM with an empty store buffer, nothing outstanding and a clean word: on a full word LDWF and LDE write the word zero-extended to rd, LDE leaving it empty; on an empty word they hold issue at the instruction with the word unchanged. On an empty word STWE writes the low 32 bits of rs2 and leaves the word full; on a full word it holds. STF writes and leaves it full in both cases; PURGE leaves it empty and changes no byte. A completed instruction moves on, and other words' FE bits stay. A misaligned address raises MISALIGNED (4), one below CODELIM ACCESS_FAULT (5). At a core in service that holds an FE wait: FE_TIMEOUT, with FEWAIT not 0, FEWAIT ticks past and no request in flight, ends the wait with FE_TIMEOUT (8) and the address in TRINFO, the word and its FE bit unchanged; before that it changes nothing. An FE instruction that is held at issue, its implied FENCE not yet met, times out in the same way, counted from the tick in which it first reached issue. FE_WAKE_SCRATCHPAD of a woken LDE wait whose word is full and clean completes it: rd takes the word, the word is empty, the program counter moves on, the hold ends. FE_WAKE_BLOCK_STORE of a woken wait on the own block store, and REMOTE_FE_RESEND of a NOT_READY request, send the request again: the first joins its bank's queue, the second waits at the block's network interface, where the cobble holds until it leaves; registers and memory stay. Model choice: log 9, 50. Every clause on a command concludes that exec answers a next state. -/
def Obligations.FullEmptyInstructionsAndWaits : Prop :=
  fullEmptyInstructions ∧ fullEmptyWaits

/-- An instruction into an f register: its operation on codes of format `f` gives a code and flags. -/
def floatResult (s : State) (c : Nat) (i : Instr) (fmt : BitVec 2) (fd : BitVec 6) (r : Nat × Fp.Flags) : Prop :=
  let k := s.cob c
  let v : W64 := if fmt = 0 then BitVec.ofNat 64 r.1 else 0xFFFFFFFF#32 ++ BitVec.ofNat 32 r.1
  exec i s = s.put c { k.setFpN fd.toNat v with fpflags := k.fpflags ||| r.2 }

/-- At a ready cobble, in format FP64 (code 0) or FP32 (code 1), FADD, FSUB, FMUL, FDIV, FSQRT, FMIN, FMAX, FMA, FMS, FNMA, FNMS, FCVT.F, FCVT.IF and FRINT complete: fd takes the operation's result on fs1, fs2 (fs3), rounded in the direction of FPCR.RM; an FP32 instruction reads bits [31:0] and writes ones above; FPFLAGS gains the flags that the operation raises and loses none; the program counter moves on and nothing else changes. Format codes 2 and 3 raise ILLEGAL_INSTRUCTION (3). Model choice: log 48. Every clause on a command concludes that exec answers a next state. -/
def Obligations.ScalarFloatArithmetic : Prop :=
  ∀ (s : State) (c : Nat) (fd fs1 fs2 fs3 : BitVec 6) (fmt : BitVec 2) (g : BitVec 5),
    let k := s.cob c
    let F := if fmt = 0 then Fp.fp64 else Fp.fp32
    let rm := Fp.RM.ofBits k.rm
    let x := fun (f : BitVec 6) => if fmt = 0 then (k.fpN f.toNat).toNat else (k.fpN f.toNat).toNat % 2 ^ 32
    (fmt.toNat < 2 →
      (s.ready c [] [fd, fs1, fs2] = true →
        floatResult s c (.fadd c fd fs1 fs2 fmt) fmt fd (Fp.add F rm (x fs1) (x fs2)) ∧
        floatResult s c (.fsub c fd fs1 fs2 fmt) fmt fd (Fp.sub F rm (x fs1) (x fs2)) ∧
        floatResult s c (.fmul c fd fs1 fs2 fmt) fmt fd (Fp.mul F rm (x fs1) (x fs2)) ∧
        floatResult s c (.fdiv c fd fs1 fs2 fmt) fmt fd (Fp.div F rm (x fs1) (x fs2)) ∧
        floatResult s c (.fmin c fd fs1 fs2 fmt) fmt fd (Fp.minMax F false (x fs1) (x fs2)) ∧
        floatResult s c (.fmax c fd fs1 fs2 fmt) fmt fd (Fp.minMax F true (x fs1) (x fs2))) ∧
      (s.ready c [] [fd, fs1] = true →
        floatResult s c (.fsqrt c fd fs1 0 fmt) fmt fd (Fp.sqrt F rm (x fs1)) ∧
        floatResult s c (.fcvtF c fd fs1 0 fmt) fmt fd
          (if fmt = 0 then Fp.convert Fp.fp32 Fp.fp64 rm .ieee ((k.fpN fs1.toNat).toNat % 2 ^ 32)
           else Fp.convert Fp.fp64 Fp.fp32 rm .ieee (k.fpN fs1.toNat).toNat) ∧
        (∀ n, n < 6 → floatResult s c (.frint c fd fs1 (BitVec.ofNat 6 n) fmt) fmt fd
          (Fp.roundInt F ((([.rne, .rtz, .rup, .rdn, .rna, rm] : List Fp.RM).getD n .rne)) (decide (n = 5)) (x fs1)))) ∧
      (s.ready c [] [fd, fs1, fs2, fs3] = true →
        floatResult s c (.fma c fd fs1 fs2 fs3 fmt) fmt fd (Fp.fma F rm false false (x fs1) (x fs2) (x fs3)) ∧
        floatResult s c (.fms c fd fs1 fs2 fs3 fmt) fmt fd (Fp.fma F rm false true (x fs1) (x fs2) (x fs3))) ∧
      (s.ready c [] [fd, fs1, fs2, g.setWidth 6] = true →
        floatResult s c (.fnma c fd fs1 fs2 g fmt) fmt fd (Fp.fma F rm true false (x fs1) (x fs2) (x (g.setWidth 6))) ∧
        floatResult s c (.fnms c fd fs1 fs2 g fmt) fmt fd (Fp.fma F rm true true (x fs1) (x fs2) (x (g.setWidth 6)))) ∧
      (s.ready c [fs1] [fd] = true →
        floatResult s c (.fcvtIf c fd fs1 0 fmt) fmt fd (Fp.ofInt F rm ((k.int fs1).setWidth 32).toInt) ∧
        floatResult s c (.fcvtIf c fd fs1 1 fmt) fmt fd (Fp.ofInt F rm ((k.int fs1).setWidth 32).toNat) ∧
        floatResult s c (.fcvtIf c fd fs1 2 fmt) fmt fd (Fp.ofInt F rm (k.int fs1).toInt) ∧
        floatResult s c (.fcvtIf c fd fs1 3 fmt) fmt fd (Fp.ofInt F rm (k.int fs1).toNat))) ∧
    (2 ≤ fmt.toNat → s.ready c [] [] = true →
      ∃ w, exec (.fadd c fd fs1 fs2 fmt) s = .next (s.trap c 3 w) ∧ ∃ w, exec (.fma c fd fs1 fs2 fs3 fmt) s = .next (s.trap c 3 w))

/-- At a ready cobble in format FP64 or FP32: FCMP.EQ, FCMP.LT and FCMP.LE write 1 or 0 to rd and add the comparison's flags; FKIND writes the class word and raises nothing; FMOV copies bits, between f registers, from an integer register (FP32: the low 32 bits with ones above) or to one (FP32: zero-extended), and raises nothing; FCVT.FI writes the integer of the named type, sign-extended if signed, and adds its flags. The program counter moves on and nothing else changes. Model choice: log 48. Every clause on a command concludes that exec answers a next state. -/
def Obligations.FloatComparesMovesAndConversions : Prop :=
  ∀ (s : State) (c : Nat) (rd rs1 rs2 : BitVec 6) (fmt : BitVec 2), fmt.toNat < 2 →
    let k := s.cob c
    let F := if fmt = 0 then Fp.fp64 else Fp.fp32
    let x := fun (f : BitVec 6) => if fmt = 0 then (k.fpN f.toNat).toNat else (k.fpN f.toNat).toNat % 2 ^ 32
    let boxed := fun (v : W64) => if fmt = 0 then v else 0xFFFFFFFF#32 ++ v.setWidth 32
    (s.ready c [rd] [rs1, rs2] = true →
      ∀ i p, (i = Instr.fcmpEq c rd rs1 rs2 fmt ∧ p = 0) ∨ (i = .fcmpLt c rd rs1 rs2 fmt ∧ p = 1) ∨
          (i = .fcmpLe c rd rs1 rs2 fmt ∧ p = 2) →
        let r := Fp.cmp F p (x rs1) (x rs2)
        exec i s = s.put c { k.setInt rd (if r.1 then 1 else 0) with fpflags := k.fpflags ||| r.2 }) ∧
    (s.ready c [rd] [rs1] = true →
      exec (.fkind c rd rs1 0 fmt) s = s.put c (k.setInt rd (BitVec.ofNat 64 (Fp.classify F (x rs1)))) ∧
      exec (.fmov c rd rs1 2 fmt) s = s.put c (k.setInt rd (BitVec.ofNat 64 (x rs1))) ∧
      (∀ n t, (n, t) ∈ ([(0, (32, true)), (1, (32, false)), (2, (64, true)), (3, (64, false))] : List (BitVec 6 × Nat × Bool)) →
        let r := Fp.toInt t.1 t.2 (Fp.RM.ofBits k.rm) (Fp.decode F (x rs1))
        exec (.fcvtFi c rd rs1 n fmt) s =
          s.put c { k.setInt rd (BitVec.ofInt 64 r.1) with fpflags := k.fpflags ||| r.2 })) ∧
    (s.ready c [] [rd, rs1] = true →
      exec (.fmov c rd rs1 0 fmt) s = s.put c (k.setFpN rd.toNat (boxed (k.fpN rs1.toNat)))) ∧
    (s.ready c [rs1] [rd] = true →
      exec (.fmov c rd rs1 1 fmt) s = s.put c (k.setFpN rd.toNat (boxed (k.int rs1))))

/-- In FP64 and FP32: a comparison with a NaN operand gives 0; FCMP.EQ then raises invalid exactly when an operand is a signalling NaN, FCMP.LT and FCMP.LE always; without NaNs no comparison raises a flag, FCMP.LE holds exactly when FCMP.LT or FCMP.EQ does, and FCMP.EQ does not depend on the order of its operands. FKIND gives one of the ten one-hot words. FMIN and FMAX of a number and a quiet NaN give the number without a flag. -/
def Obligations.FloatComparisonsFollowIeee : Prop :=
  ∀ (f : Fp.Fmt) (a b : Nat), f = Fp.fp64 ∨ f = Fp.fp32 → a < 2 ^ f.width → b < 2 ^ f.width →
    let u := Fp.decode f a
    let v := Fp.decode f b
    ((u.isNan = true ∨ v.isNan = true) →
      (∀ p, p < 3 → (Fp.cmp f p a b).1 = false) ∧
      (Fp.cmp f 0 a b).2 = (if u.isSnan || v.isSnan then Fp.NV else 0) ∧ (Fp.cmp f 1 a b).2 = Fp.NV ∧
      (Fp.cmp f 2 a b).2 = Fp.NV) ∧
    (u.isNan = false → v.isNan = false →
      (∀ p, p < 3 → (Fp.cmp f p a b).2 = 0) ∧
      (Fp.cmp f 2 a b).1 = ((Fp.cmp f 1 a b).1 || (Fp.cmp f 0 a b).1) ∧ (Fp.cmp f 0 a b).1 = (Fp.cmp f 0 b a).1) ∧
    (∃ i, i < 10 ∧ Fp.classify f a = 2 ^ i) ∧
    (u.isNan = false → v.isNan = true → v.isSnan = false → ∀ mx,
      (Fp.minMax f mx a b).1 = a ∧ (Fp.minMax f mx a b).2 = 0)

/-- A cobble outside a piazza, its lane unit awake, is ready for an SVX instruction over these v registers. -/
def svxReady (s : State) (c : Nat) (ints : List (BitVec 6)) (vs : List (BitVec 3)) : Prop :=
  s.ready c ints (vregs vs) = true ∧ (s.cob c).pz = false ∧ (s.cob c).asleep = false

/-- An SVX element operation of member `op`: `tern` names the fused forms, which read vs3. -/
def svxElements (s : State) (i : Nat → BitVec 3 → BitVec 3 → BitVec 3 → BitVec 3 → BitVec 3 → BitVec 7 → Instr) (op : Nat)
    (tern : Bool) : Prop :=
  ∀ c vd vs1 vs2 vs3 ty fn F, svxReady s c [] (if tern then [vd, vs1, vs2, vs3] else [vd, vs1, vs2]) →
    Fp.ofCode ty = some F → fn.toNat < 8 → (fn = 0 ∨ F = Fp.v8 ∨ F = Fp.g8) →
    let k := s.cob c
    let fm := fun (j : Nat) => if fn.getLsbD j then (if F = Fp.v8 then Fp.g8 else Fp.v8) else F
    let e := fun (v : BitVec 3) (i : Nat) => Fp.elem (k.vec v.toNat) F.width i
    let r := Fp.build F.width (fun i => Fp.elemOp op F (fm 0) (fm 1) (fm 2) (Fp.RM.ofBits k.rm)
      (if k.satm then .sat else .nsat) (e vs1 i) (e vs2 i) (e vs3 i)) (256 / F.width)
    exec (i c vd vs1 vs2 vs3 ty fn) s =
      s.put c { k.setVec vd.toNat r.1 with fpflags := (k.setVec vd.toNat r.1).fpflags ||| r.2 }

/-- At a ready cobble outside a piazza with its lane unit awake, and a defined element type, VADD, VSUB, VMUL, VFMA, VFMS, VFNMA, VMIN, VMAX, VCMPEQ, VCMPLT and VCMPLE (alternate-format bits only for 8-bit types) write to each element of vd the operation on the same elements of their sources, rounded under FPCR, and add the union of the elements' flags; VSEL writes the bitwise select of vs2 where vs1 is 1 and vs3 elsewhere and raises nothing. The program counter moves on; nothing else changes. Model choice: log 45, 48. Every clause on a command concludes that exec answers a next state. -/
def Obligations.SvxArithmetic : Prop :=
  ∀ (s : State),
    svxElements s .vadd 0 false ∧ svxElements s .vsub 1 false ∧ svxElements s .vmul 2 false ∧
    svxElements s .vfma 3 true ∧ svxElements s .vfms 4 true ∧ svxElements s .vfnma 5 true ∧
    svxElements s .vmin 6 false ∧ svxElements s .vmax 7 false ∧ svxElements s .vcmpeq 8 false ∧
    svxElements s .vcmplt 9 false ∧ svxElements s .vcmple 10 false ∧
    (∀ c vd vs1 vs2 vs3 ty fn, svxReady s c [] [vd, vs1, vs2, vs3] → (fn = 0 ∨ (fn.toNat < 8 ∧ (ty = 4 ∨ ty = 5))) →
      let k := s.cob c
      exec (.vsel c vd vs1 vs2 vs3 ty fn) s = s.put c (k.setVec vd.toNat
        ((k.vec vs1.toNat &&& k.vec vs2.toNat) |||
          ((2 ^ 256 - 1 - k.vec vs1.toNat % 2 ^ 256) &&& k.vec vs3.toNat))))

/-- At a ready cobble outside a piazza with its lane unit awake: VCVT between two different defined formats, with the part number in range and no option bit, writes the converted elements, into part p of vd when narrowing and keeping its other bits, from part p of vs1 when widening; with SCALE the value is scaled by the byte of SVSCALE, which only a conversion between an 8- or 4-bit format and a wider one has, and with AMAX the largest magnitude of its sources joins AMAX. VCMUL and VCFMA on FP64 or FP32 write the real and imaginary parts of the complex product, of the conjugate of vs2 with CONJ, plus vs3 for VCFMA, each rounded once, with their flags. VSPLIT3 on FP64 or FP32 with an even vd writes the high and middle pieces to the halves of vd and the low pieces to the low half of vd + 1. VBCAST copies its source's low bits to every element; VEXT writes the named element to an f register (FP32 with ones above) and VINS replaces the named element of vd. The moves raise no flag; nothing else changes. Model choice: log 21, 48, 92, 93, 94, 95, 96. Every clause on a command concludes that exec answers a next state. -/
def Obligations.SvxMovesAndConversions : Prop :=
  ∀ (s : State) (c : Nat) (vd vs1 vs2 vs3 : BitVec 3) (ty : BitVec 3) (F : Fp.Fmt), Fp.ofCode ty = some F →
    let k := s.cob c
    let W := F.width
    (svxReady s c [] [vd, vs1] → ∀ tyS S (p : BitVec 3), Fp.ofCode tyS = some S → tyS ≠ ty →
      let cv := fun i0 n => Fp.build W (fun i => Fp.put F (Fp.RM.ofBits k.rm) (if k.satm then .sat else .nsat)
        (Fp.decode S (Fp.elem (k.vec vs1.toNat) S.width (i0 + i)), 0)) n
      (W < S.width → p.toNat < S.width / W →
        let r := cv 0 (256 / S.width)
        let len := 256 / (S.width / W)
        exec (.vcvt c vd vs1 vs2 tyS ty (p.zeroExtend 11)) s = s.put c (Cobble.raise (k.setVec vd.toNat
          (Fp.splice (k.vec vd.toNat) (p.toNat * len) len r.1)) r.2)) ∧
      (S.width ≤ W → p.toNat < W / S.width →
        let r := cv (p.toNat * (256 / W)) (256 / W)
        exec (.vcvt c vd vs1 vs2 tyS ty (p.zeroExtend 11)) s = s.put c (Cobble.raise (k.setVec vd.toNat r.1) r.2)) ∧
      (∀ scale am : Bool, let scaled := scaleExp S F k.svscale.toNat
        (scale = true → scaled ≠ none) → (am = true → F.wide = false) →
        p.toNat < (if W < S.width then S.width / W else W / S.width) →
        let n := if W < S.width then 256 / S.width else 256 / W
        let i0 := if W < S.width then 0 else p.toNat * n
        let x := fun i => Fp.elem (k.vec vs1.toNat) S.width (i0 + i)
        let r := Fp.build W (fun i => convElem S F (Fp.RM.ofBits k.rm) (if k.satm then .sat else .nsat)
          (if scale then scaled.map (fun e => (k.svscale.toNat, e)) else none) (x i)) n
        let a := Fp.amaxAll k.amaxNan k.amax.toNat ((List.range n).map (fun i => Fp.decode S (x i)))
        ∃ t, exec (.vcvt c vd vs1 vs2 tyS ty (BitVec.ofNat 11 (p.toNat + 8 * boolNat scale + 16 * boolNat am))) s = .next t ∧
          (t.cob c).vec vd.toNat = (if W < S.width then
            Fp.splice (k.vec vd.toNat) (p.toNat * (256 / (S.width / W))) (256 / (S.width / W)) r.1 else r.1) % 2 ^ 256 ∧
          (t.cob c).fpflags = k.fpflags ||| r.2 ∧ (t.cob c).pc = k.pc + 4 ∧ (t.cob c).ints = k.ints ∧
          (if am then (t.cob c).amaxNan = a.1 ∧ (t.cob c).amax = BitVec.ofNat 31 a.2
           else (t.cob c).amaxNan = k.amaxNan ∧ (t.cob c).amax = k.amax) ∧ otherCobbles c s t ∧ sameMemory s t)) ∧
    ((ty = 0 ∨ ty = 1) → ∀ conj,
      let g := fun (v : BitVec 3) (i : Nat) => Fp.decode F (Fp.elem (k.vec v.toNat) W i)
      let prod := fun (z : Nat → Option Fp.FVal) => Fp.build W (fun i =>
        let j := i / 2 * 2
        let xr := g vs1 j
        let xi := g vs1 (j + 1)
        let yr := g vs2 j
        let yi := if conj then (g vs2 (j + 1)).negate else g vs2 (j + 1)
        if i % 2 = 0 then cplx F (Fp.RM.ofBits k.rm) true [xr, xi, yr, yi] xr yr xi yi (z i)
        else cplx F (Fp.RM.ofBits k.rm) false [xr, xi, yr, yi] xr yi xi yr (z i)) (256 / W)
      (svxReady s c [] [vd, vs1, vs2] →
        let r := prod (fun _ => none)
        exec (.vcmul c vd vs1 vs2 vs3 ty conj 0) s = s.put c (Cobble.raise (k.setVec vd.toNat r.1) r.2)) ∧
      (svxReady s c [] [vd, vs1, vs2, vs3] →
        let r := prod (fun i => some (g vs3 i))
        exec (.vcfma c vd vs1 vs2 vs3 ty conj 0) s = s.put c (Cobble.raise (k.setVec vd.toNat r.1) r.2)) ∧
      (svxReady s c [] [vd, vd + 1, vs1] → vd.toNat % 2 = 0 →
        let D := if ty = 0 then Fp.fp32 else Fp.w16
        let get := fun i => Fp.split3 F D (Fp.elem (k.vec vs1.toNat) W i)
        let h := Fp.build D.width (fun i => ((get i).1.1, (get i).2)) (256 / W)
        let m := Fp.build D.width (fun i => ((get i).1.2.1, 0)) (256 / W)
        let l := Fp.build D.width (fun i => ((get i).1.2.2, 0)) (256 / W)
        exec (.vsplit3 c vd vs1 vs2 vs3 ty 0) s = s.put c (Cobble.raise
          ((k.setVec vd.toNat (h.1 + m.1 * 2 ^ 128)).setVec (vd.toNat + 1) l.1) h.2))) ∧
    (∀ reg : BitVec 6, k.pz = false →
      (s.ready c [reg] (vregs [vd]) = true → exec (.vbcast c vd 0 reg ty 0 4) s = s.put c (k.setVec vd.toNat
        (Fp.build W (fun _ => ((k.int reg).toNat, 0)) (256 / W)).1)) ∧
      (s.ready c [] (vregs [vd] ++ [reg]) = true → exec (.vbcast c vd 0 reg ty 0 0) s = s.put c (k.setVec vd.toNat
        (Fp.build W (fun _ => ((k.fpN reg.toNat).toNat, 0)) (256 / W)).1)) ∧
      (∀ idx : BitVec 6, idx.toNat < 256 / W →
        (s.ready c [] (reg :: vregs [vs1]) = true → exec (.vext c 0 vs1 reg ty idx 0) s = s.put c (k.setFpN reg.toNat
          (let x := Fp.elem (k.vec vs1.toNat) W idx.toNat
           if ty = 1 then 0xFFFFFFFF#32 ++ BitVec.ofNat 32 x else BitVec.ofNat 64 x))) ∧
        (s.ready c [] (reg :: vregs [vd]) = true → exec (.vins c vd 0 reg ty idx 0) s = s.put c (k.setVec vd.toNat
          (Fp.splice (k.vec vd.toNat) (W * idx.toNat) W (k.fpN reg.toNat).toNat)))))

/-- Writing a 256-bit value to v register n makes it read back from f registers 4n to 4n + 3, bits [63:0] in f4n, and leaves every other f register; each element of a value built from elements reads back as that element's code; replacing an element of a value changes that element alone. -/
def Obligations.VectorElementsAreIndependent : Prop :=
  ∀ (k : Cobble) (n v : Nat), v < 2 ^ 256 →
    (k.setVec n v).vec n = v ∧
    (∀ j, j < 4 → (k.setVec n v).fpN (4 * n + j) = BitVec.ofNat 64 (v / 2 ^ (64 * j))) ∧
    (∀ m, m / 4 ≠ n → (k.setVec n v).fpN m = k.fpN m) ∧
    (∀ w f m i, 0 < w → i < m → Fp.elem (Fp.build w f m).1 w i = (f i).1 % 2 ^ w) ∧
    (∀ w i j x, 0 < w → Fp.elem (Fp.splice v (w * i) w x) w j = if j = i then x % 2 ^ w else Fp.elem v w j)

/-- At a ready cobble outside a piazza with an empty store buffer, VLD at an address below 16,384 that is a multiple of 32 writes the 32 bytes there, little-endian, to v, when their words are clean, and moves on; a poisoned word raises DATA_POISON (6). VST at such an address at or above CODELIM writes the 256 bits of v and no other byte of memory. An address of 16,384 or above, or for VST below CODELIM, raises ACCESS_FAULT (5), another address that is no multiple of 32 MISALIGNED (4). With a store in the buffer VST holds. Every clause on a command concludes that exec answers a next state. -/
def Obligations.VectorLoadsAndStores : Prop :=
  ∀ (s : State) (c : Nat) (v : BitVec 3) (rs1 : BitVec 6) (imm : BitVec 14), s.ready c [rs1] (vregs [v]) = true →
    let k := s.cob c
    let ea := k.int rs1 + 32 * imm.signExtend 64
    let a := scrAddr c ea.toNat
    k.pz = false →
    (ea.toNat < 2 ^ 14 → ea.toNat % 32 = 0 →
      (k.stbuf = [] → (∀ r ∈ rowsOf a 32, lget false s.psn (rowOf r) = false ∧ lget 0 s.upset (rowOf r) = 0) →
        exec (.vld c v rs1 imm) s = s.put c (k.setVec v.toNat (ofBytes (s.rdN a 32)))) ∧
      (k.stbuf = [] → (∃ r ∈ rowsOf a 32, lget false s.psn (rowOf r) = true) →
        ∃ t, exec (.vld c v rs1 imm) s = .next (t.trap c 6 ea) ∧ t.cobs = s.cobs ∧ sameMemory s t) ∧
      (k.codelim ≤ ea.toNat → k.stbuf = [] → Memory.wf s.mem = true →
        ∃ t, exec (.vst c v rs1 imm) s = .next t ∧ t.cob c = { k with pc := k.pc + 4 } ∧ otherCobbles c s t ∧
          ∀ x, t.rd8 x = if a ≤ x ∧ x < a + 32 then BitVec.ofNat 8 (k.vec v.toNat / 256 ^ (x - a)) else s.rd8 x) ∧
      (k.codelim ≤ ea.toNat → k.stbuf ≠ [] → exec (.vst c v rs1 imm) s = .next s)) ∧
    (2 ^ 14 ≤ ea.toNat → exec (.vld c v rs1 imm) s = .next (s.trap c 5 ea)) ∧
    (2 ^ 14 ≤ ea.toNat ∨ ea.toNat < k.codelim → exec (.vst c v rs1 imm) s = .next (s.trap c 5 ea)) ∧
    (ea.toNat < 2 ^ 14 → ea.toNat % 32 ≠ 0 → exec (.vld c v rs1 imm) s = .next (s.trap c 4 ea)) ∧
    (ea.toNat < 2 ^ 14 → k.codelim ≤ ea.toNat → ea.toNat % 32 ≠ 0 → exec (.vst c v rs1 imm) s = .next (s.trap c 4 ea))

/-- At a ready cobble outside a piazza, TLD with an even va loads the 16 accumulator positions from va and va + 1, or zeros them, and sets the accumulator format; TST with an even va writes the 512-bit image of the positions to va and va + 1; TMAC with types that the accumulator format admits, equal or both of 8 bits, writes the 16 positions of its image and adds its flags. In a control cobble VADD, TLD, TMAC and TST raise ILLEGAL_INSTRUCTION (3), as does a TLD or TST with the reserved type code 7. With the lane unit asleep VADD starts a wake and holds. LANE_UNIT_WAKE_DONE ends a wake; LANE_UNIT_POWER_DOWN puts the unit to sleep unless AWAKE is 1; SVXCTL_WRITE sets AWAKE and starts a wake of a sleeping unit; in a control cobble no lane unit wakes or powers down. Model choice: log 10, 24, 48, 97. Every clause on a command concludes that exec answers a next state. -/
def Obligations.SmallTilesAndLaneUnit : Prop :=
  ∀ (s : State) (c : Nat) (va vb ty : BitVec 3), c < nCobbles →
    let k := s.cob c
    (s.ready c [] (vregs [va, va + 1]) = true → k.pz = false → va.toNat % 2 = 0 → ty = 7 → ∀ f, ∃ w,
      exec (.tld c va 0 0 0 ty ty f) s = .next (s.trap c 3 w) ∧ ∃ w', exec (.tst c va 0 0 0 ty ty f) s = .next (s.trap c 3 w')) ∧
    (s.ready c [] (vregs [va, va + 1]) = true → k.pz = false → va.toNat % 2 = 0 → ty ≠ 7 →
      (∀ f64 zero : Bool, exec (.tld c va 0 0 0 ty ty (BitVec.ofNat 8 (2 * boolNat f64 + boolNat zero))) s =
        s.put c { k.setTile (if zero then 0 else k.vec va.toNat + 2 ^ 256 * k.vec (va + 1).toNat) 16 with acc64 := f64 }) ∧
      exec (.tst c va 0 0 0 ty ty 0) s = s.put c ((k.setVec va.toNat (k.tile % 2 ^ 256)).setVec (va.toNat + 1)
        (k.tile / 2 ^ 256))) ∧
    (s.ready c [] (vregs [va, vb]) = true → k.pz = false → (k.acc64 = true → ty = 1) → (k.acc64 = false → ty ≠ 0) →
      ∀ tyB F G, Fp.ofCode ty = some F → Fp.ofCode tyB = some G → (tyB = ty ∨ (ty ∈ [4, 5] ∧ tyB ∈ [4, 5])) →
      let a := k.vec va.toNat
      let b := k.vec vb.toNat
      let img := if k.acc64 then Fp.build 64 (fun e => tmac64 a b k (e / 2) (e % 2)) 8
        else Fp.build 32 (fun e => tmac32 F G a b k (e / 4) (e % 4)) 16
      exec (.tmac c va vb 0 0 ty tyB 0) s = s.put c (Cobble.raise (k.setTile img.1 16) img.2)) ∧
    (s.ready c [] (vregs [va, va + 1]) = true → k.pz = true → ∀ f, ∃ w,
      exec (.tld c va 0 0 0 ty ty f) s = .next (s.trap c 3 w) ∧ ∃ w', exec (.tst c va 0 0 0 ty ty f) s = .next (s.trap c 3 w')) ∧
    (s.ready c [] (vregs [va, vb]) = true → k.pz = true → ∃ w, exec (.tmac c va vb 0 0 ty ty 0) s = .next (s.trap c 3 w)) ∧
    (s.ready c [] (vregs [va, va, vb]) = true → k.pz = true → ∃ w, exec (.vadd c va va vb vb ty 0) s = .next (s.trap c 3 w)) ∧
    (s.ready c [] (vregs [va, va, vb]) = true → k.pz = false → ty.toNat < 7 → k.asleep = true →
      exec (.vadd c va va vb vb ty 0) s = .next (s.setCob c { k with waking := true })) ∧
    (k.pz = false → k.waking = true → exec (.laneUnitWakeDone c) s = .next (s.setCob c { k with asleep := false, waking := false })) ∧
    (k.pz = false → k.awakeReq = false → k.asleep = false → exec (.laneUnitPowerDown c) s = .next (s.setCob c { k with asleep := true })) ∧
    (k.awakeReq = true → exec (.laneUnitPowerDown c) s = .next s) ∧
    (∀ x, s.coreUp c = true → exec (.svxctlWrite c x) s = .next (s.setCob c { k with
      awakeReq := x, waking := k.waking || (x && k.asleep && !k.pz) })) ∧
    (k.pz = true → exec (.laneUnitWakeDone c) s = .next s ∧ exec (.laneUnitPowerDown c) s = .next s)

/-- A control cobble is ready for a Piazza ISA instruction that uses `u`: one more may be in flight and none in flight holds it. -/
def pzReady (s : State) (c : Nat) (ints : List (BitVec 6)) (u : PUse) (fps : List (BitVec 6) := []) : Prop :=
  s.ready c ints (fps ++ u.fps) = true ∧ (s.cob c).pz = true ∧ (s.slotOf c).fly.length < 16 ∧ (s.slotOf c).pzWaits u = false

/-- The instruction's state, its entry in flight kept with what it uses. -/
def pzNext (s : State) (c : Nat) (u : PUse) (t : State) : Res :=
  .next (t.tagFly (slotOfBlk (blkOf c)) (s.slotOf c).fly.length u (u.rd.bind (regIdx (s.cob c))))

/-- At a ready cobble that is no control cobble MMA, ACCZ, VSETL, TOP, ROW_REDUCE and PFENCE raise ILLEGAL_INSTRUCTION (3). At a control cobble with 16 instructions in flight, or a matrix operation among them, ACCZ holds; TOP holds while an instruction in flight writes a tile that it reads; with sleeping lanes and room in flight a well-formed TOP starts their wake and holds. PFENCE moves on when nothing is in flight and holds otherwise. PIAZZA_COUNT_END of the n-th instruction in flight removes it and adds its flags to PFLAGS of the control cobble; a core that is not in WAIT keeps everything else. Model choice: log 53. Every clause on a command concludes that exec answers a next state. -/
def Obligations.PiazzaIssueFlightAndCountEnd : Prop :=
  ∀ (s : State) (c : Nat),
    let k := s.cob c
    let p := s.slotOf c
    (s.ready c [] [] = true → k.pz = false →
      (∃ w, exec (.accz c 0 0 0) s = .next (s.trap c 3 w)) ∧ ∃ w, exec (.pfence c 0) s = .next (s.trap c 3 w)) ∧
    (∀ td ta tb op ty, s.ready c [] (PUse.fps { tiles := [ta.toNat, tb.toNat], outTiles := [td.toNat] }) = true → k.pz = false →
      ∃ w, exec (.top c td ta tb op ty 0 false) s = .next (s.trap c 3 w)) ∧
    (∀ td ts tm ty op, s.ready c [] (PUse.fps { tiles := [ts.toNat], outTiles := [td.toNat] }) = true → k.pz = false →
      ∃ w, exec (.rowReduce c td ts tm ty op false false false) s = .next (s.trap c 3 w)) ∧
    (∀ rk ra rb ty, s.ready c [rk, ra, rb] [] = true → k.pz = false →
      ∃ w, exec (.mma c rk ra rb ty ty false true) s = .next (s.trap c 3 w)) ∧
    (∀ rs1 rs2, s.ready c [rs1, rs2] [] = true → k.pz = false → ∃ w, exec (.vsetl c 0 rs1 rs2) s = .next (s.trap c 3 w)) ∧
    (s.ready c [] [] = true → k.pz = true → 16 ≤ p.fly.length → exec (.accz c 0 0 0) s = .next s) ∧
    (s.ready c [] [] = true → k.pz = true → (∃ f ∈ p.fly, f.use.acc = .matrix) → exec (.accz c 0 0 0) s = .next s) ∧
    (∀ td ta tb op ty bb, c < nCobbles → s.canIssue c = true → k.badFetch = false → k.pz = true →
      (∃ f ∈ p.fly, ta.toNat ∈ f.use.outTiles ∨ tb.toNat ∈ f.use.outTiles) → exec (.top c td ta tb op ty bb false) s = .next s) ∧
    (∀ td ta tb, pzReady s c [] { tiles := [ta.toNat, tb.toNat], outTiles := [td.toNat] } → p.asleep = true →
      exec (.top c td ta tb 0 1 0 false) s = .next (s.modSlot (slotOfBlk (blkOf c)) (fun q => { q with waking := true }))) ∧
    (s.ready c [] [] = true → k.pz = true →
      (p.fly = [] → exec (.pfence c 0) s = s.put c k) ∧ (p.fly ≠ [] → exec (.pfence c 0) s = .next s)) ∧
    (∀ sl n f, sl < 20 → (lget ({} : Slot) s.slots sl).fly[n]? = some f → (s.cob (ctlCobble sl)).hold ≠ .waitInt →
      ∃ t, exec (.piazzaCountEnd sl n) s = .next t ∧
        (lget ({} : Slot) t.slots sl).fly = (lget ({} : Slot) s.slots sl).fly.eraseIdx n ∧
        t.cob (ctlCobble sl) = { s.cob (ctlCobble sl) with
          pflags := (s.cob (ctlCobble sl)).pflags ||| f.flags.zeroExtend 64 } ∧
        otherCobbles (ctlCobble sl) s t ∧ sameMemory s t)

/-- At a control cobble with room in flight MMROWW and MMCOLW replace 64-bit word w of the row or column mask; MMROWR and MMCOLR set it to ones from rs1 up to rs2 - 1 where rs1 <= rs2 <= 256 and raise ILLEGAL_INSTRUCTION (3) otherwise; MSCB takes a base that is a multiple of 8 and raises MISALIGNED (4) otherwise; VSETL takes lengths up to 64 and 512. Each enters flight and moves on; no byte of memory changes. LANE_SLEEP puts the lanes to sleep unless AWAKE is 1, LANE_WAKE_DONE ends a wake, PVCTL_WRITE sets AWAKE and starts a wake of sleeping lanes, PZCFG_MODE_WRITE sets the requested mode and a non-zero LMB. Model choice: log 10, 24, 53. Every clause on a command concludes that exec answers a next state. -/
def Obligations.PiazzaSettings : Prop :=
  ∀ (s : State) (c : Nat) (rs1 rs2 : BitVec 6),
    let k := s.cob c
    let sl := slotOfBlk (blkOf c)
    let set := fun (e : Nat) (f : Slot → Slot) => pzNext s c {} ((s.modSlot sl f).inFlight c e 0)
    (pzReady s c [rs1] {} →
      (∀ w : BitVec 2,
        exec (.mmroww c 0 rs1 0 w) s = set 0 (fun p => { p with mrow := maskWord p.mrow w.toNat (k.int rs1) }) ∧
        exec (.mmcolw c 0 rs1 0 w) s = set 0 (fun p => { p with mcol := maskWord p.mcol w.toNat (k.int rs1) })) ∧
      ((k.int rs1).toNat % 8 = 0 → exec (.mscb c 0 rs1 0) s = set 0 (fun p => { p with mscb := k.int rs1 })) ∧
      ((k.int rs1).toNat % 8 ≠ 0 → exec (.mscb c 0 rs1 0) s = .next (s.trap c 4 (k.int rs1)))) ∧
    (pzReady s c [rs1, rs2] {} →
      let a := (k.int rs1).toNat
      let b := (k.int rs2).toNat
      (a ≤ b → b ≤ 256 →
        exec (.mmrowr c 0 rs1 rs2) s = set 0 (fun p => { p with mrow := BitVec.ofNat 256 (2 ^ b - 2 ^ a) }) ∧
        exec (.mmcolr c 0 rs1 rs2) s = set 0 (fun p => { p with mcol := BitVec.ofNat 256 (2 ^ b - 2 ^ a) })) ∧
      (b < a ∨ 256 < b → ∃ w w', exec (.mmrowr c 0 rs1 rs2) s = .next (s.trap c 3 w) ∧
        exec (.mmcolr c 0 rs1 rs2) s = .next (s.trap c 3 w')) ∧
      (a ≤ 64 → b ≤ 512 → exec (.vsetl c 0 rs1 rs2) s = set 1 (fun p => { p with vlr := a, vlc := b })) ∧
      (64 < a ∨ 512 < b → ∃ w, exec (.vsetl c 0 rs1 rs2) s = .next (s.trap c 3 w))) ∧
    (∀ e f, (f (s.slotOf c)).fly = (s.slotOf c).fly →
      let t := ((s.modSlot sl f).inFlight c e 0).tagFly sl (s.slotOf c).fly.length {} none
      t.cob c = { k with pc := k.pc + 4 } ∧ t.mem = s.mem ∧
      lget ({} : Slot) t.slots sl = (let p := f (lget ({} : Slot) s.slots sl); { p with fly := p.fly ++ [{ engine := e }] })) ∧
    (∀ n, n < 20 → let p := lget ({} : Slot) s.slots n
      exec (.laneSleep n) s = .next (s.modSlot n (fun p => if p.awake then p else { p with asleep := true })) ∧
      (p.waking = true → exec (.laneWakeDone n) s =
        .next (s.modSlot n (fun p => { p with asleep := false, waking := false }))) ∧
      (∀ x, exec (.pvctlWrite n x) s = .next (s.modSlot n (fun p => { p with
        awake := x, waking := p.waking || (x && p.asleep) }))) ∧
      (∀ v : BitVec 32, exec (.pzcfgModeWrite n v) s = .next (s.modSlot n (fun p => { p with
        reqPz := v.getLsbD 31, lmb := if v.toNat % 16 = 0 then p.lmb else v.toNat % 16 }))))

/-- At a control cobble with room in flight MMA and MMAS with an allowed pair of formats raise ILLEGAL_INSTRUCTION (3) for a K that is not a multiple of 64 from 64 to 65,536, MISALIGNED (4) for a panel base that is no multiple of 1,024, ACCESS_FAULT (5) for a panel past the piazza store or scales past the lane memory, and otherwise run: the operation over K, the panels, ZERO and the scales. ACCZ zeroes the accumulators of the 4,096 lanes. ACCLD and ACCST raise MISALIGNED (4) for a lane address that is no multiple of 8, ACCESS_FAULT (5) past the lane memory, and otherwise complete, entering flight and moving on. Model choice: log 48, 53. Every clause on a command concludes that exec answers a next state. -/
def Obligations.MatrixOperationsRun : Prop :=
  ∀ (s : State) (c : Nat) (rk ra rb : BitVec 6),
    let k := s.cob c
    let sl := slotOfBlk (blkOf c)
    let p := s.slotOf c
    let K := (k.int rk).toNat
    let A := (k.int ra).toNat
    let B := (k.int rb).toNat
    let outcome := fun (i : Instr) (o : MatOp) =>
      ((K % 64 ≠ 0 ∨ K < 64 ∨ 65536 < K) → ∃ w, exec i s = .next (s.trap c 3 w)) ∧
      (K % 64 = 0 → 64 ≤ K → K ≤ 65536 →
        (A % 1024 ≠ 0 → exec i s = .next (s.trap c 4 (BitVec.ofNat 64 A))) ∧
        (A % 1024 = 0 → B % 1024 ≠ 0 → exec i s = .next (s.trap c 4 (BitVec.ofNat 64 B))) ∧
        (A % 1024 = 0 → B % 1024 = 0 →
          (33554432 < A + o.spanA → exec i s = .next (s.trap c 5 (BitVec.ofNat 64 A))) ∧
          (A + o.spanA ≤ 33554432 → 33554432 < B + o.spanB → exec i s = .next (s.trap c 5 (BitVec.ofNat 64 B))) ∧
          (A + o.spanA ≤ 33554432 → B + o.spanB ≤ 33554432 →
            (o.scaled = true → p.lmSize < p.mscb.toNat + K / 4 → exec i s = .next (s.trap c 5 p.mscb)) ∧
            ((o.scaled = true → p.mscb.toNat + K / 4 ≤ p.lmSize) →
              exec i s = pzNext s c { acc := .matrix } (s.matrix c sl p o)))))
    (pzReady s c [rk, ra, rb] { acc := .matrix } →
      (∀ tyA tyB F G zero, Fp.ofCode tyA = some F → Fp.ofCode tyB = some G →
        ((tyA = tyB ∧ tyA ≠ 0) ∨ (tyA ∈ [4, 5] ∧ tyB ∈ [4, 5])) →
        outcome (.mma c rk ra rb tyA tyB false zero) { fa := F, fb := G, k := K, a := A, b := B, acc64 := false, zero := zero }) ∧
      (∀ zero, outcome (.mma c rk ra rb 1 1 true zero)
        { fa := Fp.fp32, fb := Fp.fp32, k := K, a := A, b := B, acc64 := true, zero := zero }) ∧
      (∀ sca scb zero, (sca || scb) = true → ∀ n m : BitVec 2, n ≠ 3 → (m = n ∨ (n.toNat < 2 ∧ m.toNat < 2)) →
        outcome (.mmas c rk ra rb n m sca scb zero false)
          { fa := masFmt n, fb := masFmt m, k := K, a := A, b := B, acc64 := false, zero := zero, sca := sca, scb := scb })) ∧
    (pzReady s c [] { acc := .writes } →
      exec (.accz c 0 0 0) s = pzNext s c { acc := .writes } ((s.eachLane sl (fun _ k => k.setTile 0 16)).inFlight c 0 0)) ∧
    (pzReady s c [ra] { acc := .writes } → pzReady s c [ra] { acc := .reads } →
      (A % 8 ≠ 0 → exec (.accld c 0 ra 0) s = .next (s.trap c 4 (k.int ra)) ∧
        exec (.accst c 0 ra 0) s = .next (s.trap c 4 (k.int ra))) ∧
      (A % 8 = 0 → p.lmSize < A + 64 → exec (.accld c 0 ra 0) s = .next (s.trap c 5 (k.int ra)) ∧
        exec (.accst c 0 ra 0) s = .next (s.trap c 5 (k.int ra))) ∧
      (A % 8 = 0 → A + 64 ≤ p.lmSize → ∀ i a, (i = Instr.accld c 0 ra 0 ∧ a = AccUse.writes) ∨ (i = Instr.accst c 0 ra 0 ∧ a = .reads) →
        ∃ t fl, exec i s = .next t ∧ (t.cob c).pc = k.pc + 4 ∧ (t.cob c).ints = k.ints ∧ (t.cob c).fps = k.fps ∧
          (lget ({} : Slot) t.slots sl).fly = p.fly ++ [{ engine := 0, flags := fl, use := { acc := a } }]))

/-- In the lane (x, y) of an FP32 matrix operation position e holds output row 4y + e / 4 and column 4x + e mod 4. A position whose row or column the masks exclude keeps its value; an unmasked one takes the accumulation of the operation's products in ascending K onto its old value, or onto zero with ZERO. Registers, program counter and every other field of the lane's cobble stay. Model choice: log 48, 53. Every clause on a command concludes that exec answers a next state. -/
def Obligations.MatrixMasksProtectOutputs : Prop :=
  ∀ (o : MatOp) (f : Feed) (mrow mcol : BitVec 256) (l : Nat) (k : Cobble), o.acc64 = false → l < 4096 →
    let r := (o.lane f mrow mcol l k).1
    (∀ e, e < 16 →
      let m := 4 * (l / 64) + e / 4
      let n := 4 * (l % 64) + e % 4
      r.pos e = if mrow.getLsbD m = true ∧ mcol.getLsbD n = true then
        (Fp.accSeq Fp.fp32 o.zero (k.pos e) (o.prods f m n)).1 % 2 ^ 32 else k.pos e) ∧
    (∀ e, 16 ≤ e → r.pos e = k.pos e) ∧ { r with acc := k.acc } = k

/-- At a control cobble with room in flight, for an aligned lane address within the lane memory and no external access committed to the wave, ACCST leaves position e of every lane, as four little-endian bytes, at the lane address plus 4e in that lane's memory, and every byte of memory outside those 64 bytes of each lane as it was; ACCLD from the same address changes no byte of memory. Model choice: log 53. Every clause on a command concludes that exec answers a next state. -/
def Obligations.AccumulatorsStoreToLaneMemory : Prop :=
  ∀ (s : State) (c : Nat) (ra : BitVec 6), pzReady s c [ra] { acc := .reads } → pzReady s c [ra] { acc := .writes } → Memory.wf s.mem = true →
    let sl := slotOfBlk (blkOf c)
    let A := ((s.cob c).int ra).toNat
    A % 8 = 0 → A + 64 ≤ (s.slotOf c).lmSize → s.committed sl = [] →
    (∃ t, exec (.accst c 0 ra 0) s = .next t ∧
      (∀ l e i, l < 4096 → e < 16 → i < 4 → t.rd8 (s.lAddr sl l (A + 4 * e + i)) =
        BitVec.ofNat 8 ((s.cob (laneCob sl l)).pos e / 256 ^ i)) ∧
      (∀ a, (∀ l, l < 4096 → ¬ (s.lAddr sl l A ≤ a ∧ a < s.lAddr sl l A + 64)) → t.rd8 a = s.rd8 a)) ∧
    (∃ t, exec (.accld c 0 ra 0) s = .next t ∧ t.mem = s.mem)

/-- At a control cobble with room in flight, for an element whose column lies in the type: TMVX writes the element to the register (I32 sign-extended, an FP32 element in an f register with ones above, others zero-extended); TMVI replaces that element of the tile with the register's low bits and leaves every other element of every tile. A column outside the type raises ACCESS_FAULT (5). TFLG writes a mask tile, all ones where a selected flag of the lane is set, and clears the selected flags where rs1[5] is 1. With awake lanes TCMPR and TEXPD write the number of selected elements to rd. Each enters flight and moves on; no byte of memory changes. Model choice: log 53. Every clause on a command concludes that exec answers a next state. -/
def Obligations.TileMoves : Prop :=
  ∀ (s : State) (c : Nat) (reg rs1 : BitVec 6) (t : BitVec 5) (ty : BitVec 3),
    let k := s.cob c
    let sl := slotOfBlk (blkOf c)
    let p := s.slotOf c
    let r := elRow (k.int rs1)
    let q := elCol (k.int rs1)
    let done := fun (us : PUse) (u : State) => (u.cob c).pc = k.pc + 4 ∧ u.mem = s.mem ∧
      (lget ({} : Slot) u.slots sl).fly = p.fly ++ [{ engine := 1, use := us, reg := us.rd.bind (regIdx k) }]
    let uX : PUse := { tiles := [t.toNat], rd := some reg }
    let uI : PUse := { outTiles := [t.toNat] }
    let put := fun (v : W64) (u : State) => ∀ t' ty' r' q', r' < 64 → q' < tyCols ty' → (t' = t.toNat → ty' = ty) →
      u.tel sl t' ty' r' q' = if t' = t.toNat ∧ r' = r ∧ q' = q then v.toNat % 2 ^ tyW ty else s.tel sl t' ty' r' q'
    (pzReady s c [reg, rs1] uX → pzReady s c [reg, rs1] uI →
      (q < tyCols ty →
        (∃ u, exec (.tmvx c reg rs1 t ty false 0) s = .next u ∧ done uX u ∧
          (u.cob c).ints = (k.setInt reg (if ty = 7 then (BitVec.ofNat 32 (s.tel sl t.toNat ty r q)).signExtend 64
            else BitVec.ofNat 64 (s.tel sl t.toNat ty r q))).ints ∧ otherCobbles c s u) ∧
        (∃ u, exec (.tmvi c reg rs1 t ty false 0) s = .next u ∧ done uI u ∧ put (k.int reg) u)) ∧
      (tyCols ty ≤ q → exec (.tmvx c reg rs1 t ty false 0) s = .next (s.trap c 5 (k.int rs1)) ∧
        exec (.tmvi c reg rs1 t ty false 0) s = .next (s.trap c 5 (k.int rs1)))) ∧
    (pzReady s c [rs1] uI [reg] → q < tyCols ty →
      ∃ u, exec (.tmvi c reg rs1 t ty true 0) s = .next u ∧ done uI u ∧ put (k.fp reg) u) ∧
    (let us : PUse := { tiles := [t.toNat], outTiles := [reg.toNat] }
     pzReady s c [rs1] us [reg] → q < tyCols ty →
      ∃ u, exec (.tmvx c reg rs1 t ty true 0) s = .next u ∧ done us u ∧
        (u.cob c).fpN reg.toNat = (let x := s.tel sl t.toNat ty r q
          if ty = 7 then (BitVec.ofNat 32 x).signExtend 64 else if ty = 1 then 0xFFFFFFFF#32 ++ BitVec.ofNat 32 x
          else BitVec.ofNat 64 x)) ∧
    (pzReady s c [rs1] uI →
      ∃ u, exec (.tflg c reg rs1 t ty false 0) s = .next u ∧ done uI u ∧
        (∀ r' q', r' < 64 → q' < 64 → u.tel sl t.toNat 7 r' q' =
          if lget 0 p.lflags (64 * r' + q') &&& (k.int rs1).setWidth 5 = 0 then 0 else 0xFFFFFFFF) ∧
        ∀ l, lget 0 (lget ({} : Slot) u.slots sl).lflags l = lget 0 p.lflags l &&&
          (if (k.int rs1).getLsbD 5 then ~~~ (k.int rs1).setWidth 5 else 0x1F#5)) ∧
    (∀ ts tm, let us : PUse := { tiles := [ts.toNat, tm.toNat], outTiles := [t.toNat], rd := some reg }
      pzReady s c [reg] us → p.asleep = false →
      let n := BitVec.ofNat 64 (s.selected sl tm.toNat ty p).length
      ∃ u v, exec (.tcmpr c t ts tm reg ty) s = .next u ∧ done us u ∧ (u.cob c).ints = (k.setInt reg n).ints ∧
        exec (.texpd c t ts tm reg ty) s = .next v ∧ done us v ∧ (v.cob c).ints = (k.setInt reg n).ints)

/-- At a control cobble with room in flight: TLDP and TSTP with a base or stride that is not aligned to the type's access raise MISALIGNED (4), with an active lane past the piazza store ACCESS_FAULT (5), and otherwise make the band's accesses in one wave; TLDP delivers each lane's word to the active elements of the tile, NaN where it lost or met poison, TSTP writes the active bytes of the tile's words; a Q4 store with an odd VLC and a band the type does not have raise ILLEGAL_INSTRUCTION (3). TLDL and TSTL do so at lane memory, at rs1 or at rs1 plus the lane's element of Ti; a lane whose address lies past its memory delivers NaN, or stores nothing. Each enters flight with its poison and conflict flags and moves on. Model choice: log 53. Every clause on a command concludes that exec answers a next state. -/
def Obligations.TileLoadsAndStores : Prop :=
  ∀ (s : State) (c : Nat) (t : BitVec 5) (rs1 rs2 : BitVec 6) (ty band : BitVec 3) (cb : Bool),
    let k := s.cob c
    let sl := slotOfBlk (blkOf c)
    let p := s.slotOf c
    let base := k.int rs1
    let al := if ty = 0 then 8 else 4
    let odd : Prop := ty = 6 ∧ p.vlc % 2 = 1
    (pzReady s c [rs1, rs2] { outTiles := [t.toNat] } → pzReady s c [rs1, rs2] { tiles := [t.toNat] } →
      (bandRows ty band = none ∨ odd → ∃ w, exec (.tstp c t rs1 rs2 ty band cb) s = .next (s.trap c 3 w)) ∧
      (bandRows ty band = none → ∃ w, exec (.tldp c t rs1 rs2 ty band cb) s = .next (s.trap c 3 w)) ∧
      ∀ lo n, bandRows ty band = some (lo, n) →
      let stride := k.int rs2
      let lanes := p.bandLanes ty lo n
      let adr := fun l => base.toNat + l / 64 * stride.toNat + (if cb then 0 else al * (l % 64))
      let both := fun (x : Res) => exec (.tldp c t rs1 rs2 ty band cb) s = x ∧
        (¬ odd → exec (.tstp c t rs1 rs2 ty band cb) s = x)
      (base.toNat % al ≠ 0 → both (.next (s.trap c 4 base))) ∧
      (base.toNat % al = 0 → stride.toNat % al ≠ 0 → both (.next (s.trap c 4 stride))) ∧
      (base.toNat % al = 0 → stride.toNat % al = 0 →
        ((∃ l ∈ lanes, 33554432 < adr l + al) → both (.next (s.trap c 5 base))) ∧
        ((∀ l ∈ lanes, adr l + al ≤ 33554432) →
          (let r := s.wave sl k.pc.toNat (lanes.map (fun l => { key := l, adr := pAddr sl (adr l), len := al }))
           exec (.tldp c t rs1 rs2 ty band cb) s = pzNext s c { outTiles := [t.toNat] }
            ((r.2.2.loadLanes sl t.toNat ty p cb (lanes.zip r.1)).inFlight c 1
            (pIf (r.1.any (·.isNone)) pPsn ||| pIf r.2.1 pBankc))) ∧
          (let r := s.wave sl k.pc.toNat (lanes.map (fun l =>
            WAcc.mk l (pAddr sl (adr l)) al (some (p.byteMask ty l, toBytes al (s.lword sl t.toNat l))) none))
           ¬ odd → exec (.tstp c t rs1 rs2 ty band cb) s = pzNext s c { tiles := [t.toNat] } (r.2.2.inFlight c 1 (pIf r.2.1 pBankc)))))) ∧
    (∀ ix : Bool, ∀ ti : BitVec 5,
      let uL : PUse := { tiles := if ix then [ti.toNat] else [], outTiles := [t.toNat] }
      let uS : PUse := { tiles := t.toNat :: (if ix then [ti.toNat] else []) }
      pzReady s c [rs1] uL → pzReady s c [rs1] uS →
      (odd → ∃ w, exec (.tstl c t rs1 ix ti ty band cb) s = .next (s.trap c 3 w)) ∧
      let both := fun (x : Res) =>
        exec (.tldl c t rs1 ix ti ty band cb) s = x ∧ (¬ odd → exec (.tstl c t rs1 ix ti ty band cb) s = x)
      (base.toNat % al ≠ 0 → both (.next (s.trap c 4 base))) ∧
      (base.toNat % al = 0 → ix = false → p.lmSize < base.toNat + al → both (.next (s.trap c 5 base))) ∧
      (base.toNat % al = 0 → (ix = true ∨ base.toNat + al ≤ p.lmSize) →
        let adr := fun l => if ix then (base.toNat + s.lword sl ti.toNat l % 2 ^ 32) / al * al else base.toNat
        let inn := (p.bandLanes ty 0 64).filter (fun l => adr l + al ≤ p.lmSize)
        let out := (p.bandLanes ty 0 64).filter (fun l => p.lmSize < adr l + al)
        (let r := s.wave sl k.pc.toNat (inn.map (fun l => { key := l, adr := s.lAddr sl l (adr l), len := al }))
         exec (.tldl c t rs1 ix ti ty band cb) s = pzNext s c uL
          ((r.2.2.loadLanes sl t.toNat ty p false (inn.zip r.1 ++ out.map (fun l => (l, none)))).inFlight c 1
            (pIf (r.1.any (·.isNone) || !out.isEmpty) pPsn ||| pIf r.2.1 pBankc))) ∧
        (let r := s.wave sl k.pc.toNat (inn.map (fun l =>
            WAcc.mk l (s.lAddr sl l (adr l)) al (some (p.byteMask ty l, toBytes al (s.lword sl t.toNat l))) none))
         ¬ odd → exec (.tstl c t rs1 ix ti ty band cb) s = pzNext s c uS (r.2.2.inFlight c 1 (pIf r.2.1 pBankc)))))

/-- At a control cobble with room in flight and awake lanes, an allowed TOP operation on an allowed type writes, to every active element of Td, the operation on the same elements of Ta and Tb, or with BB on those of Tb's first row, first column or first element, rounded under the control cobble's FPCR; inactive elements of Td and every element of every other tile keep their values, whatever Td, Ta and Tb share. It enters flight, moves on, and changes no integer register and no byte of memory. Model choice: log 48, 53. Every clause on a command concludes that exec answers a next state. -/
def Obligations.TopWritesActiveElements : Prop :=
  ∀ (s : State) (c : Nat) (td ta tb op : BitVec 5) (ty : BitVec 3) (bb : BitVec 2),
    pzReady s c [] { tiles := [ta.toNat, tb.toNat], outTiles := [td.toNat] } → (s.slotOf c).asleep = false →
    topOp op.toNat = true → opTyOk op.toNat ty = true →
    let k := s.cob c
    let sl := slotOfBlk (blkOf c)
    let p := s.slotOf c
    let g := Stage.mk op.toNat ty 0 [ta.toNat, tb.toNat, 44] [0, bb.toNat, 0] td.toNat true 0 false 0
    ∃ t, exec (.top c td ta tb op ty bb false) s = .next t ∧ (t.cob c).pc = k.pc + 4 ∧ (t.cob c).ints = k.ints ∧
      t.mem = s.mem ∧ (lget ({} : Slot) t.slots sl).fly.length = p.fly.length + 1 ∧
      (∀ r q, r < 64 → q < tyCols ty → t.tel sl td.toNat ty r q =
        if p.live ty r q then (stageElem g k.dir k.ovf (s.tel sl ta.toNat ty r q) 
            (s.tel sl tb.toNat ty (if bb.getLsbD 0 then 0 else r) (if bb.getLsbD 1 then 0 else q)) 0 0).1 % 2 ^ tyW ty
        else s.tel sl td.toNat ty r q) ∧
      (∀ u l, u ≠ td.toNat → l < 4096 → t.lword sl u l = s.lword sl u l)

/-- At a control cobble with room in flight CHLD of an aligned descriptor in the private part of its scratchpad, with no store in the buffer and clean words, stores the 64 bytes in its slot, VALID when the descriptor is valid; a misaligned address raises MISALIGNED (4), one past LMBASE ACCESS_FAULT (5). With awake lanes CHAIN of a valid slot runs its stages with the scalars it names, and of an invalid slot raises ILLEGAL_INSTRUCTION (3). TCVTBN, TCVTBW and TSPLIT3 with admitted operands, and with a type and options that Table 10-9 admits ROW_REDUCE, COLUMN_REDUCE, FULL_TILE_REDUCE, ROW_SCAN and COLUMN_SCAN, complete: the control cobble moves on with its integer registers kept, one more instruction of their engine is in flight, no byte of memory changes. Model choice: log 25, 27, 48, 53, 54, 92, 94, 98, 99. Every clause on a command concludes that exec answers a next state. -/
def Obligations.ChainsConversionsAndReductions : Prop :=
  ∀ (s : State) (c : Nat),
    let k := s.cob c
    let sl := slotOfBlk (blkOf c)
    let p := s.slotOf c
    let done := fun (e : Nat) (us : PUse) (i : Instr) => ∃ u fl, exec i s = .next u ∧ (u.cob c).pc = k.pc + 4 ∧ (u.cob c).ints = k.ints ∧
      u.mem = s.mem ∧ (lget ({} : Slot) u.slots sl).fly = p.fly ++ [{ engine := e, flags := fl, use := us }]
    (∀ slot rs1, pzReady s c [rs1, 0#6] { outChain := some slot.toNat } → slot.toNat < 16 →
      let a := (k.int rs1).toNat
      (a % 64 ≠ 0 → exec (.chld c slot rs1 0) s = .next (s.trap c 4 (k.int rs1))) ∧
      (a % 64 = 0 → p.lmbase < a + 64 → exec (.chld c slot rs1 0) s = .next (s.trap c 5 (k.int rs1))) ∧
      (a % 64 = 0 → a + 64 ≤ p.lmbase → k.stbuf = [] →
        (∀ r ∈ rowsOf (scrAddr c a) 64, lget false s.psn (rowOf r) = false ∧ lget 0 s.upset (rowOf r) = 0) →
        let d := s.rdN (scrAddr c a) 64
        exec (.chld c slot rs1 0) s = pzNext s c { outChain := some slot.toNat } ((s.modSlot sl (fun q => { q with
          chains := lset q.chains slot.toNat { valid := descOk (ofBytes d), desc := d } })).inFlight c 1 0))) ∧
    (∀ slot : BitVec 4,
      let h := lget ({} : ChainSlot) p.chains slot.toNat
      let d := ofBytes h.desc
      let x := (usedX d).map (xOf d)
      let us : PUse := { stagesUse (stagesOf d) with chain := some slot.toNat }
      pzReady s c ((x.filter (fun e => !e.1)).map (·.2)) us ((x.filter (·.1)).map (·.2)) →
      (h.valid = false → ∃ w, exec (.chain c slot 0) s = .next (s.trap c 3 w)) ∧
      (h.valid = true → p.asleep = false → exec (.chain c slot 0) s = pzNext s c us (s.chain c sl k p
        (fun i => (if (xOf d i).1 then k.fp (xOf d i).2 else k.int (xOf d i).2).toNat) (stagesOf d)))) ∧
    (∀ td ts tsc wide narrow auto amx idx, p.asleep = false →
      let uN : PUse := {
        tiles := tileGrp ts (cvtbR wide narrow) ++ (if auto then [] else [tsc.toNat]),
        outTiles := td.toNat :: (if auto then [tsc.toNat] else []), amax := if amx then [idx.toNat] else [] }
      let uW : PUse := { tiles := [ts.toNat, tsc.toNat], outTiles := tileGrp td (cvtbR wide narrow) }
      (pzReady s c [] uN → cvtbOk p wide narrow ts td tsc = true → done 1 uN (.tcvtbn c td ts tsc wide narrow auto amx idx)) ∧
      (pzReady s c [] uW → cvtbOk p wide narrow td ts tsc = true → done 1 uW (.tcvtbw c td ts tsc wide narrow false false idx))) ∧
    (∀ td ts ty part, let us : PUse := { tiles := [ts.toNat], outTiles := tileGrp td 3 }
      pzReady s c [] us → p.asleep = false → td.toNat ≤ 29 → (ty = 1 ∨ (ty = 0 ∧ part = false)) →
      done 1 us (.tsplit3 c td ts 0 ty part 0)) ∧
    (∀ td ts tm ty op excl, let us : PUse := { tiles := [ts.toNat], outTiles := [td.toNat] }
      (excl = true → op = 0) → pzReady s c [] us →
      done 2 us (.rowReduce c td ts tm ty op false excl false) ∧ done 2 us (.fullTileReduce c td ts tm ty op false excl false) ∧
      ((ty = 0 ∨ ty = 1 ∨ ty = 7) → done 2 us (.columnReduce c td ts tm ty op false excl false) ∧
        ∀ seg : Bool, let uS : PUse := { tiles := ts.toNat :: (if seg then [tm.toNat] else []), outTiles := [td.toNat] }
          pzReady s c [] uS →
          done 2 uS (.rowScan c td ts tm ty op seg excl false) ∧ done 2 uS (.columnScan c td ts tm ty op seg excl false)))

/-- A tree over 2^n leaves combines the tree of its first half with the tree of its second half; an absent leaf gives the other operand's value and flags. With all I32 leaves present a SUM is their sum modulo 2^32 whatever the order, and no flag is raised. -/
def Obligations.ReductionTrees : Prop :=
  (∀ op rt rm n (l r : List (Option (Nat × Fp.Flags))), l.length = 2 ^ n → r.length = 2 ^ n →
    tree op rt rm (n + 1) (l ++ r) = combine op rt rm (tree op rt rm n l) (tree op rt rm n r)) ∧
  (∀ op rt rm (x : Option (Nat × Fp.Flags)), combine op rt rm none x = x ∧ combine op rt rm x none = x) ∧
  (∀ rm n (l : List Nat), l.length = 2 ^ n → (∀ x ∈ l, x < 2 ^ 32) →
    tree 0 7 rm n (l.map (fun x => some (x, 0))) = some (l.sum % 2 ^ 32, 0))

/-- REMOTE_ACCESS judges the oldest remote access of a block. It is admitted exactly when its tenant tag is the partition's, it lies at or above the target cobble's CODELIM (scratchpad), it lies below the enabled cache quarters (block store), and one of the 32 windows is open for its space and class with RD for a read, WR for a write, and FE as well for an FE operation (the model's reading: LDWF and LDE read, the others write), for its die when DIEEN is 1, with every byte between BASE and LIMIT and its cobble between COBLO and COBHI. An admitted access joins its unit's queue in order, part by part where it covers several rows; the network interface presents none while a bank has not admitted an earlier one. A refused one changes no memory, WVSTAT counts it up to 0xFFFF, WVADDR and the low half of WVSTAT hold the first, and its requester is answered. WINDOW_OPEN of an entry below ALLOC whose fields satisfy R172 opens the window and answers OK; of any other it changes no window. WINDOW_CLOSE with the other fields unchanged clears OPEN and waits, an access that has arrived keeping the admission it has then; WINDOW_CLOSE_ACK answers the write once no access admitted before it is pending. Model choice: log 8, 47. Every clause on a command concludes that exec answers a next state. -/
def Obligations.RemoteAccessesNeedAWindow : Prop :=
  ∀ (s : State) (b : Nat), s.staged b →
    let k := s.blk b
    (∀ a, s.admits b a = true ↔ (a.tenant = s.tenantOf b ∧
      (a.space ≠ 0 → (s.cob (b * 256 + a.cob)).codelim ≤ a.off) ∧
      (a.space = 0 → a.off + a.size ≤ (4 - k.nq) * 0x80000) ∧
      ∃ n < 32, ∃ r, r = lget 0 k.winCtl n ∧ ∃ x, x = lget 0 k.winSrc n ∧ winOpen r = true ∧ winSpace r = a.space ∧
        bit (winClass r) a.sclass = true ∧ winPerm r &&& a.need = a.need ∧
        (x.getLsbD 31 = true → bits x.toNat 0 6 = a.sdie) ∧
        (lget 0 k.winBase n).toNat ≤ a.off ∧ a.off + a.size ≤ (lget 0 k.winLimit n).toNat + 1 ∧
        (a.space ≠ 0 → winLo r ≤ a.cob ∧ a.cob ≤ winHi r))) ∧
    (k.remoteIn = [] ∨ k.waitq.any (·.remote) = true → exec (.remoteAccess b) s = .next s) ∧
    (∀ a rest, k.remoteIn = a :: rest → k.waitq.any (·.remote) = false → a.remote = true →
      let q := { k with remoteIn := rest, admSeq := k.admSeq + 1 }
      let a' := { a with seq := k.admSeq }
      let goes := fun (q' : Block) => exec (.remoteAccess b) s = .next (s.setBlk b q')
      (a.granted = true ∨ s.admits b a = true →
        (a.space = 0 → s.pzActive b = false → a.single 3 = true →
          (k.bankRoom a.off = true → goes (q.enqueue a')) ∧
          (k.bankRoom a.off = false → goes { q with waitq := k.waitq ++ [a'] })) ∧
        (a.space = 1 → s.pzActive b = false → a.single 2 = true → goes { q with bg := k.bg ++ [a'] }) ∧
        (a.space = 0 → s.pzActive b = false → a.single 3 = false → a'.rows 3 ≠ [] →
          goes (q.spread a' (a'.rows 3) (fun x y => x.present y))) ∧
        (a.space = 1 → s.pzActive b = false → a.single 2 = false → a'.rows 2 ≠ [] →
          goes (q.spread a' (a'.rows 2) (fun x y => { x with bg := x.bg ++ [y] }))) ∧
        (a.space ≤ 1 → s.pzActive b = true → (a.space = 1 → a.off % 16 + a.size ≤ 16) → goes { q with ext := k.ext ++ [a'] })) ∧
      (a.granted = false → s.admits b a = false → a.sclass < 4 → a.sdie < 64 → runs (.remoteAccess b) s (fun t =>
        sameMemory s t ∧ sameRegisters s t ∧ (t.blk b).remoteIn = rest ∧ (t.blk b).bankq = k.bankq ∧
        (let n := k.wvstat.toNat / 65536
         (t.blk b).wvstat.toNat / 65536 = min (n + 1) 0xFFFF ∧
         (n ≠ 0 → (t.blk b).wvaddr = k.wvaddr ∧ (t.blk b).wvstat.toNat % 65536 = k.wvstat.toNat % 65536) ∧
         (n = 0 → bits (t.blk b).wvstat.toNat 6 6 = a.sdie ∧ bits (t.blk b).wvstat.toNat 4 2 = a.sclass ∧
           bit (t.blk b).wvstat.toNat 3 = a.isWrite))))) ∧
    (∀ a rest, k.ctlIn = a :: rest → a.winCtl = true →
      let r := b32 (a.val &&& winCtlMask)
      let q := { k with ctlIn := rest }
      let old := lget 0 k.winCtl a.winNo
      (winOpen old = false → bit a.val 31 = true → a.winNo < k.winAlloc → (s.setBlk b q).winOk b a.winNo r = true →
        exec (.windowOpen b) s = .next ((s.setBlk b { q with winCtl := cset 0 k.winCtl a.winNo r }).reply b a 0 [])) ∧
      (winOpen old = false → bit a.val 31 = true → ¬ (a.winNo < k.winAlloc ∧ (s.setBlk b q).winOk b a.winNo r = true) →
        exec (.windowOpen b) s = .next ((s.setBlk b q).reply b a 6 [])) ∧
      (winOpen old = true → bit a.val 31 = false → a.winNo < k.winAlloc → r = old &&& 0x7FFFFFFF#32 →
        (let here := k.remoteIn.map (fun x => { x with granted := x.granted || (s.setBlk b q).admits b x })
         exec (.windowClose b) s = .next (s.setBlk b { q with
          winCtl := cset 0 k.winCtl a.winNo r, remoteIn := here,
          closing := k.closing ++ [{ acc := a, before := k.admSeq + (here.filter (·.granted)).length }] }))) ∧
      (winOpen old = true → bit a.val 31 = false → ¬ (a.winNo < k.winAlloc ∧ r = old &&& 0x7FFFFFFF#32) →
        exec (.windowClose b) s = .next ((s.setBlk b q).reply b a 6 []))) ∧
    (∀ c rest, k.closing = c :: rest →
      (k.admitted c.before = true → exec (.windowCloseAck b) s = .next s) ∧
      (k.admitted c.before = false →
        exec (.windowCloseAck b) s = .next ((s.setBlk b { k with closing := rest }).reply b c.acc 0 [])))

/-- Each of these commands of a block in service answers a next state. BACKGROUND_BANK_ACCESS gives an idle step to each of the four banks of a scratchpad: the bank serves the requester that comes first after the last winner among the DMA engine, the stream engine, the network interface and scrub, and of it the oldest access. EXTERNAL_WAVE takes the oldest external access of every block of the slot; alone in the wave a read answers its bytes and a write or FE operation takes effect. REMOTE_FE_OPERATION serves the remote FE operation at the head of a bank's queue, or next at a scratchpad bank: at the block store the word's FE bit becomes empty after a satisfied LDE and full after STWE and STF, every other FE bit stays, an unsatisfied one changes no memory, and no byte outside the word changes. In an idle bank CORRECTION_WRITE_BACK clears a corrected row's upset and POISON_WRITE stores an uncorrectable row as poison, each without a change of data or FE bits; in a bank with a waiting request they change nothing. SCRUB_ROW_DUE makes a bank's row due while EN is 1 and never while EN is 0; SCRUB_READ in an idle step reads the due row and moves the bank to its next row; SCRUB_STARVED sets its memory's flag and is logged once; CE_RATE is logged when CECNT has reached its multiple. Model choice: log 8, 52. Every clause on a command concludes that exec answers a next state. -/
def Obligations.BanksCorrectionPoisonAndScrub : Prop :=
  ∀ (s : State) (b : Nat), s.staged b →
    let k := s.blk b
    (∀ cob, exec (.backgroundBankAccess b cob) s = .next ((List.range 4).foldl (fun s i => s.bgStep b (64 + cob * 4 + i)) s)) ∧
    (∀ n, let last := lget 3 k.bgLast n
      let rank := fun (q : Nat) => (q + 3 + 3 * last) % 4
      let head := fun (q : Nat) => k.bg.find? (fun a => 64 + a.cob * 4 + a.off / 4 % 4 = n && bgClass a = q)
      let waits := fun (q : Nat) => if q = 3 then n ∈ k.scrubDue else (head q).isSome = true
      ((∀ q < 4, ¬ waits q) → s.bgStep b n = s) ∧
      (∀ q < 4, waits q → (∀ q' < 4, waits q' → rank q ≤ rank q') →
        (q = 3 → s.bgStep b n = s.scrubRow b n) ∧
        (q ≠ 3 → ∀ a, head q = some a → s.bgStep b n = (s.setBlk b { k.idleStep n with
          bg := k.bg.erase a, bgLast := lset k.bgLast n q }).served b a))) ∧
    (s.committed (slotOfBlk b) = [] → exec (.externalWave b) s = .next s) ∧
    (∀ d a, s.committed (slotOfBlk b) = [(d, a)] →
      let rows := rowsOf (accAddr d a) a.size
      let off := fun (x : State) => x.modBlk d (fun q => { q with ext := q.ext.drop 1 })
      (a.kind = .rd → exec (.externalWave b) s = .next ((off (s.readRows rows.eraseDups).2).accDone d a
        (if rows.any s.badRow then 4 else 0) (s.rdN (accAddr d a) a.size))) ∧
      (a.kind ≠ .rd → exec (.externalWave b) s = .next ((off s).served d a))) ∧
    (runs (.externalWave b) s (fun t => ∀ d < nBlocks,
      (slotOfBlk d = slotOfBlk b → (t.blk d).ext = (s.blk d).ext.drop 1) ∧
      (slotOfBlk d ≠ slotOfBlk b → (t.blk d).ext = (s.blk d).ext))) ∧
    (k.bankq.find? (fun e => e.2.head?.any Acc.remoteFe) = none →
      let next := fun (a : Acc) => let n := 64 + a.cob * 4 + a.off / 4 % 4
        a.remoteFe && k.bgTurn n == some 2 && k.bgHead n 2 == some a
      (∀ a, k.bg.find? next = some a → exec (.remoteFeOperation b) s = .next (s.bgStep b (64 + a.cob * 4 + a.off / 4 % 4))) ∧
      (k.bg.find? next = none → exec (.remoteFeOperation b) s = .next s)) ∧
    (∀ bank a rest op, k.bankq.find? (fun e => e.2.head?.any Acc.remoteFe) = some (bank, a :: rest) → a.kind = .fe op →
      a.space = 0 → k.waitq = [] → canonFrom [] 0 k.bankq = true → Memory.wf s.mem = true → canonFrom false 0 s.fe = true →
      runs (.remoteFeOperation b) s (fun t =>
      let f := bsAddr b a.off
      lget [] (t.blk b).bankq bank = rest ∧ (∀ x, x / 4 ≠ f / 4 → t.feBit x = s.feBit x) ∧
      (∀ x, x < f ∨ f + 4 ≤ x → t.rd8 x = s.rd8 x) ∧
      (op.ready (s.feBit f) = false → sameMemory s t) ∧
      (op = .stwe ∨ op = .stf → op.ready (s.feBit f) = true → t.feBit f = true ∧
        (a.data.length = 4 → t.rdN f 4 = a.data)) ∧
      (op = .purge → t.feBit f = false) ∧
      (op = .ldwf → t.feBit f = s.feBit f ∧ t.mem = s.mem) ∧
      (op = .lde → s.feBit f = true → (s.readMem f 4).2.1 = false → t.feBit f = false ∧ t.mem = s.mem))) ∧
    (∀ row, let idle := fun (x : State) => x.modBlk (blkOfFlat row) (fun q => q.idleStep (rowBank row))
      (row ∈ s.corr → s.bankIdle row = true → exec (.correctionWriteBack row) s =
        .next (idle { s with upset := cset 0 s.upset (rowOf row) 0, corr := s.corr.filter (· != row) })) ∧
      (row ∉ s.corr ∨ s.bankIdle row = false → exec (.correctionWriteBack row) s = .next s) ∧
      (row ∈ s.poisonDue → s.bankIdle row = true → exec (.poisonWrite row) s =
        .next (idle { s with
          upset := cset 0 s.upset (rowOf row) 0, psn := cset false s.psn (rowOf row) true,
          poisonDue := s.poisonDue.filter (· != row) })) ∧
      (row ∉ s.poisonDue ∨ s.bankIdle row = false → exec (.poisonWrite row) s = .next s)) ∧
    (∀ n, n < 1088 →
      (k.scrubctl.getLsbD 4 = true → exec (.scrubRowDue b n) s = .next (s.setBlk b { k with scrubDue := insertNat n k.scrubDue })) ∧
      (k.scrubctl.getLsbD 4 = false → exec (.scrubRowDue b n) s = .next s) ∧
      (let turn := if n < 64 then s.bankIdle (bankRow b n 0) = true else k.bgTurn n = some 3
       (n ∉ k.scrubDue ∨ ¬ turn → exec (.scrubRead b n) s = .next s) ∧
       (n ∈ k.scrubDue → turn → lget 0 k.scrubPos n < bankRows n → runs (.scrubRead b n) s (fun t =>
        let row := bankRow b n (lget 0 k.scrubPos n)
        t.mem = s.mem ∧ t.fe = s.fe ∧ sameRegisters s t ∧ n ∉ (t.blk b).scrubDue ∧
        lget 0 (t.blk b).scrubPos n = (lget 0 k.scrubPos n + 1) % bankRows n ∧
        (lget false s.psn (rowOf row) = false → lget 0 s.upset (rowOf row) = 1 →
          (t.blk b).cecnt = satInc k.cecnt ∧ row ∈ t.corr ∧ (t.blk b).uecnt = k.uecnt) ∧
        (lget false s.psn (rowOf row) = false → 2 ≤ lget 0 s.upset (rowOf row) →
          row ∈ t.poisonDue ∧ (t.blk b).cecnt = k.cecnt ∧
          (t.blk b).uecnt = if row ∈ s.poisonDue then k.uecnt else satInc k.uecnt) ∧
        (lget false s.psn (rowOf row) = true ∨ lget 0 s.upset (rowOf row) = 0 →
          (t.blk b).uecnt = k.uecnt ∧ (t.blk b).cecnt = k.cecnt)))) ∧
      (n ∉ k.starved → exec (.scrubStarved b n) s = .next ((s.setBlk b { k with
        starved := k.starved ++ [n], starveBs := k.starveBs || n < 64, starveSp := k.starveSp || 64 ≤ n }).logBlk b 4
          [boolNat (64 ≤ n), n])) ∧
      (n ∈ k.starved → exec (.scrubStarved b n) s = .next s)) ∧
    (k.ceDue = true → exec (.ceRate b) s = .next ((s.setBlk b { k with ceDue := false }).logBlk b 1 [k.cecnt.toNat])) ∧
    (k.ceDue = false → exec (.ceRate b) s = .next s)

/-- A CACHEOP write of a block whose cache engine is in service, naming a sync object of its partition, is acknowledged: while BUSY it only sets OVR; OP 0 only keeps the write; FLUSH, INV and FLUSHINV set BUSY, and with a FILL binding present every line in range has an empty dirty mask after it, with its valid mask kept by FLUSH and emptied by INV and FLUSHINV, while lines out of range stay. A CACHECTL write is refused for NQ above 4, in a piazza, where an open window overlaps a quarter to be taken, or above 0 while the partition has no valid FILL binding; of the present NQ it changes nothing; of another it starts FLUSHINV on every line. CACHE_OPERATION_DONE waits for every write-back; then it clears BUSY and sends an ADD of 1 to SYNCID when SYNCEN is 1, or, for a changed NQ, changes the split, drops every line and clears the bytes of the quarters that change their role to 0 with empty FE bits, all other bytes kept. CACHE_FILL_DONE of a good answer fills the line and lets the waiting load go on; of any other answer it answers the load with that status; then the accesses that waited behind it are tried again. Model choice: log 22, 82. Every clause on a command concludes that exec answers a next state. -/
def Obligations.CacheOperations : Prop :=
  ∀ (s : State) (b : Nat), s.staged b →
    let k := s.blk b
    let inOp := fun (op : Nat) => if op = 0 then Instr.cacheopNone b else if op = 1 then .flush b else if op = 2 then .inv b
      else .flushinv b
    (∀ a rest, k.ctlIn = a :: rest → a.writes 0x1304 = true → s.engOff b 2 = false →
      let op := bits a.val 29 2
      let q := { k with ctlIn := rest }
      (s.ownObj b (a.val % 2 ^ 13) = false → exec (inOp op) s = .next ((s.setBlk b q).reply b a 6 [])) ∧
      (s.ownObj b (a.val % 2 ^ 13) = true →
        (k.cacheBusy = true → exec (inOp op) s = .next ((s.setBlk b { q with cacheOvr := true }).reply b a 0 [])) ∧
        (k.cacheBusy = false → op = 0 →
          exec (.cacheopNone b) s = .next ((s.setBlk b { q with cacheop := b32 a.val }).reply b a 0 [])) ∧
        (k.cacheBusy = false → op ≠ 0 → (s.fillPort b).isSome = true → (k.lines.map (·.1)).Pairwise (· < ·) →
          runs (inOp op) s (fun t => (t.blk b).cacheBusy = true ∧ t.mem = s.mem ∧ sameRegisters s t ∧
            ∀ e ∈ k.lines, (let adr := cAddr e.1 e.2
              let l := lget ({} : CLine) (t.blk b).lines e.1
              let hit := bit a.val 31 = true ∨ (k.cbase.toNat / 256 * 256 ≤ adr ∧ adr ≤ k.climit.toNat / 256 * 256)
              (hit → l.tag = e.2.tag ∧ l.dirty = 0 ∧ l.valid = if op = 1 then e.2.valid else 0) ∧
              (¬ hit → l = e.2)))))) ∧
    (∀ a rest, k.ctlIn = a :: rest → a.writes 0x1300 = true → k.cacheBusy = false →
      let nq := a.val % 8
      let q := { k with ctlIn := rest }
      let bad := 4 < nq ∨ s.pzActive b = true ∨ (k.nq < nq ∧ k.winAbove (cacheFrom nq) = true) ∨
        (0 < nq ∧ s.fillPort b = none)
      (bad → exec (.cachectlWrite b) s = .next ((s.setBlk b q).reply b a 6 [])) ∧
      (¬ bad → nq = k.nq → exec (.cachectlWrite b) s = .next ((s.setBlk b q).reply b a 0 [])) ∧
      (¬ bad → nq ≠ k.nq → exec (.cachectlWrite b) s =
        .next (((s.setBlk b { q with cacheBusy := true, nqNew := nq }).cacheScan b 3 (fun _ => true)).reply b a 0 []))) ∧
    (k.cacheBusy = true → s.engOff b 2 = false → s.aon.susp = [] → k.cacheStuck = false → k.cacheUsed.length < 256 →
      (k.misses.any (·.wb) = true → exec (.cacheOperationDone b) s = .next s) ∧
      (k.misses.any (·.wb) = false → k.nq = k.nqNew →
        exec (.cacheOperationDone b) s = .next (if k.cacheop.getLsbD 28 = true then
          (let tag := freshTag k.cacheUsed 256 256 0
           (s.setBlk b { k with cacheBusy := false, cacheAdd := some tag }).syncAdd b 259 tag k.cacheLevel (bits k.cacheop.toNat 0 13))
          else s.setBlk b { k with cacheBusy := false })) ∧
      (k.misses.any (·.wb) = false → k.nq ≠ k.nqNew → k.nq ≤ 4 → k.nqNew ≤ 4 →
        runs (.cacheOperationDone b) s (fun t =>
          (t.blk b).nq = k.nqNew ∧ (t.blk b).cacheBusy = false ∧ (t.blk b).lines = [] ∧ sameRegisters s t ∧
          ∀ x, (let chg := bsAddr b (cacheFrom (max k.nq k.nqNew)) ≤ x ∧ x < bsAddr b (cacheFrom (min k.nq k.nqNew))
            t.rd8 x = (if chg then 0 else s.rd8 x) ∧ t.feBit x = (if chg then false else s.feBit x))))) ∧
    (∀ a m, k.engAns.find? (fun a => a.sport = 259) = some a →
      k.misses.find? (fun m => !m.wb && m.cmd.isNone && m.tag = a.tag) = some m →
      let s1 := (s.setBlk b { k with engAns := k.engAns.erase a, misses := k.misses.erase m }).cachePump b
      let ans := fun (st : Nat) (d : List Byte) => ({ sport := m.acc.sport, tag := m.acc.tag, status := st, data := d } : Ans)
      (a.status = 0 →
        let s2 := s1.cacheFill b m.addr a.data
        exec (.cacheFillDone b) s = .next ((if ((s2.blk b).cFind m.acc.off).isSome then s2.cacheDo b m.acc
          else s2.deliver b (ans 0 ((a.data.drop (m.acc.off % 256)).take m.acc.size))).cacheRetry b)) ∧
      (a.status ≠ 0 → exec (.cacheFillDone b) s = .next ((s1.deliver b (ans a.status [])).cacheRetry b)))

/-- Of the operations that reach a block in one step, SYNC_SET takes the SET of lowest rank first, so that the highest-ranked one stands; SYNC_ADD takes an ADD only when no SET of its object is left, in rank order; SYNC_READ a READ only when neither is left. A SET makes VALUE data[30:0] and ERR 0. An ADD makes VALUE the sum and keeps ERR when the sum is below 2^31; otherwise VALUE stays, ERR becomes 1, the event is logged, and its requester gets an error: a refused store, a reply with BAD_PARAM to a host signal, every watch on the object REFUSED for a barrier release. A READ is answered ERR and VALUE, which stay. Every other object of the block, memory and every cobble's registers stay, and the operation leaves the queue. Model choice: log 23, 81. Every clause on a command concludes that exec answers a next state. -/
def Obligations.SyncObjectsTakeOperationsInOrder : Prop :=
  ∀ (s : State) (b : Nat), s.staged b →
    let k := s.blk b
    let g := k.syncStep
    let others := fun (t : State) (a : Acc) => sameMemory s t ∧ sameRegisters s t ∧ (t.blk b).syncIn = k.syncIn.erase a ∧
      ∀ j, j ≠ a.syncObj → lget 0 (t.blk b).sync j = lget 0 k.sync j
    (∀ a, k.nextSync 0 = some a →
      a ∈ g ∧ a.syncOp = 0 ∧ (∀ x ∈ g, x.syncOp = 0 → x.rank ≤ a.rank) ∧
      runs (.syncSet b) s (fun t => others t a ∧ lget 0 (t.blk b).sync a.syncObj = BitVec.ofNat 32 (a.val % 2 ^ 31))) ∧
    (∀ a, k.nextSync 1 = some a →
      a ∈ g ∧ a.syncOp = 1 ∧ (∀ x ∈ g, x.syncObj = a.syncObj → x.syncOp ≠ 0 ∧ (x.syncOp = 1 → a.rank ≤ x.rank)) ∧
      runs (.syncAdd b) s (fun t => others t a ∧
        let w := lget 0 k.sync a.syncObj
        let w' := lget 0 (t.blk b).sync a.syncObj
        let v := syncValue w + a.val % 2 ^ 31
        (v < 2 ^ 31 → syncValue w' = v ∧ w'.getLsbD 31 = w.getLsbD 31) ∧
        (2 ^ 31 ≤ v → syncValue w' = syncValue w ∧ w'.getLsbD 31 = true ∧
          t.logSlots.any (fun l => l.kind == 2 && l.id == b) = true)) ∧
      exec (.syncAdd b) s = .next ((((s.syncTake b a).objAdd b a.syncObj (a.val % 2 ^ 31) a.source).2.syncSettle b a.syncObj).syncEnd b a
        (decide (syncValue (lget 0 k.sync a.syncObj) + a.val % 2 ^ 31 < 2 ^ 31)) [])) ∧
    (∀ a, k.nextSync 2 = some a →
      a ∈ g ∧ a.syncOp = 2 ∧ (∀ x ∈ g, x.syncObj = a.syncObj → 2 ≤ x.syncOp) ∧
      exec (.syncRead b) s = .next ((s.syncTake b a).syncEnd b a true (toBytes 4 (lget 0 k.sync a.syncObj).toNat))) ∧
    (∀ (u : State) a ok d, (a.sport ≠ spRelease → a.sport ≠ spSignal → u.syncEnd b a ok d = u.reply b a (if ok then 0 else 6) d) ∧
      (a.sport = spRelease → u.syncEnd b a ok d = if ok then u else u.refuseAll b a.syncObj) ∧
      (∀ x, a.sport = spSignal → (u.blk b).sigs.find? (fun e => e.1 == a.tag) = some (a.tag, x) → u.syncEnd b a ok d =
        (u.modBlk b (fun q => { q with sigs := lfilter (· != a.tag) q.sigs })).sigReturn b x (if ok then 0 else stBadParam)
          (lget 0 (u.blk b).sync a.syncObj).toNat u.pktime))

/-- At a core in service whose armed watch is not held in another block, SYNCWATCH_ARM of an object of the own block clears IPEND.SIGNAL, increments ASEQ modulo 16, sets STATE to ARMED and queues the registration; of an object of another block of the partition it sends the registration there and holds the watch; of an object outside the partition it ends REFUSED with SIGNAL set; SYNCWATCH_WITHDRAW sets STATE to IDLE and clears SIGNAL. With a watch held in another block, the first write sends one withdrawal and changes no watch field, and WITHDRAWAL_ACK of it ends an armed watch as IDLE and leaves one that was met meanwhile. WATCH_REGISTRATION, between two steps of the sync unit, of a watch whose TARGET the object's VALUE has reached wakes it; a local one below is kept; a remote one below is kept while the table of 32 has room and refused when it is full, the block is fenced, or its tenant tag is not the partition's, which is logged. WATCH_WAKE with the current ASEQ of an armed watch sets STATE to MET, or to REFUSED for a refusal, and IPEND.SIGNAL; any other wake changes no register or watch field of the cobble. Model choice: log 24. Every clause on a command concludes that exec answers a next state. -/
def Obligations.WatchesAreArmedMetAndWithdrawn : Prop :=
  ∀ (s : State),
    (∀ c obj target, c < nCobbles → s.coreUp c = true → s.watchAway c = false →
      let k := s.cob c
      (obj.toNat / 16 = blkOf c → runs (.syncwatchArm c obj target) s (fun t => let q := t.cob c
        q.swState = 1 ∧ q.aseq = (k.aseq + 1) % 16 ∧ q.swObj = obj.toNat ∧ q.swTarget = target.toNat ∧ q.ipSignal = false ∧
        q.ints = k.ints ∧ q.pc = k.pc ∧ sameMemory s t ∧
        ({ cid := c, obj := obj.toNat, target := target.toNat, aseq := (k.aseq + 1) % 16 }, false, s.tenantOf (blkOf c)) ∈
          (t.blk (blkOf c)).watchIn)) ∧
      (obj.toNat / 16 ≠ blkOf c → obj.toNat / 16 < nBlocks → s.samePart (blkOf c) (obj.toNat / 16) = true →
        let w : Watch := { cid := c, obj := obj.toNat, target := target.toNat, aseq := (k.aseq + 1) % 16 }
        runs (.syncwatchArm c obj target) s (fun t => let q := t.cob c
          q.swState = 1 ∧ q.aseq = (k.aseq + 1) % 16 ∧ q.swHeld = some w ∧ q.ipSignal = false ∧ q.ints = k.ints ∧ q.pc = k.pc ∧
          ∃ p, (t.blk (blkOf c)).niq = (s.blk (blkOf c)).niq ++ [p] ∧ p.dst = obj.toNat / 16 ∧
            p.pay = .watch w (s.tenantOf (blkOf c)))) ∧
      (obj.toNat / 16 ≠ blkOf c → ¬ (obj.toNat / 16 < nBlocks ∧ s.samePart (blkOf c) (obj.toNat / 16) = true) →
        runs (.syncwatchArm c obj target) s (fun t => (t.cob c).swState = 3 ∧ (t.cob c).ipSignal = true)) ∧
      runs (.syncwatchWithdraw c obj target) s (fun t => let q := t.cob c
        q.swState = 0 ∧ q.aseq = k.aseq ∧ q.ipSignal = false ∧ (t.blk (blkOf c)).lwatch.all (fun w => w.cid != c) = true)) ∧
    (∀ c obj target i, i = Instr.syncwatchArm c obj target ∨ i = Instr.syncwatchWithdraw c obj target →
      c < nCobbles → s.coreUp c = true → s.watchAway c = true →
      let k := s.cob c
      (k.swOut = true → exec i s = .next s) ∧
      (∀ w, k.swOut = false → k.swHeld = some w → runs i s (fun t => t.cob c = { k with swOut := true } ∧
        ∃ p, (t.blk (blkOf c)).niq = (s.blk (blkOf c)).niq ++ [p] ∧ p.dst = w.obj / 16 ∧ p.pay = .withdraw w))) ∧
    (∀ c, c < nCobbles → c ∈ (s.blk (blkOf c)).wdAcks → runs (.withdrawalAck c) s (fun t => let k := s.cob c
      t.cob c = (if k.swOut then { k with swOut := false, swHeld := none, swState := if k.swState = 1 then 0 else k.swState } else k))) ∧
    (∀ b w remote tenant rest, s.staged b → (s.blk b).watchIn = (w, remote, tenant) :: rest →
      let k := s.blk b
      let u := s.setBlk b { k with watchIn := rest }
      let met := w.target ≤ syncValue (lget 0 k.sync (w.obj % 16))
      let full := k.fence = true ∨ k.rstFence = true ∨ 32 ≤ k.rwatch.length
      (k.syncN ≠ 0 → exec (.watchRegistration b) s = .next s) ∧
      (k.syncN = 0 →
      (remote = true → tenant ≠ s.tenantOf b →
        exec (.watchRegistration b) s = .next ((u.logBlk b 0x41 [tenant.toNat, 0, s.pos.toNat]).wake b w true)) ∧
      (remote = true → tenant = s.tenantOf b → full → exec (.watchRegistration b) s = .next (u.wake b w true)) ∧
      (remote = false ∨ (tenant = s.tenantOf b ∧ ¬ full) → met → exec (.watchRegistration b) s = .next (u.wake b w false)) ∧
      (remote = true → tenant = s.tenantOf b → ¬ full → ¬ met →
        exec (.watchRegistration b) s = .next (s.setBlk b { k with watchIn := rest, rwatch := k.rwatch ++ [w] })) ∧
      (remote = false → ¬ met →
        exec (.watchRegistration b) s = .next (s.setBlk b { k with watchIn := rest, lwatch := k.lwatch ++ [w] })))) ∧
    (∀ c e, c < nCobbles → (s.blk (blkOf c)).wakes.find? (fun x => x.1.cid = c) = some e →
      let k := s.cob c
      (k.swState = 1 → e.1.aseq = k.aseq → runs (.watchWake c) s (fun t =>
        (t.cob c).swState = (if e.2 then 3 else 2) ∧ (t.cob c).ipSignal = true ∧
        (k.hold ≠ .waitInt → t.cob c = { k with swHeld := if k.swOut then k.swHeld else none, swState := if e.2 then 3 else 2, ipSignal := true }))) ∧
      (¬ (k.swState = 1 ∧ e.1.aseq = k.aseq) → runs (.watchWake c) s (fun t => t.cob c = k)))

/-- The oldest store to BARARRIVE counts in COUNT while COUNT is below EXPECT; when COUNT equals EXPECT (or exceeds it, in a state no run reaches) it counts in EARLY while EARLY is below EXPECT; when EARLY equals EXPECT too, which includes EXPECT 0, it is refused, changes neither count, and the block logs a barrier overrun. A node in a partition that has arrived with its children and has not yet said so tells its parent. When the root has arrived, BARRIER_RELEASE moves EARLY to COUNT, clears EARLY, toggles GEN and gives the sync unit an ADD of 1 to the barrier's object, of the highest rank, in every block of the partition with EXPECT above 0, keeps the GEN of the others and changes no barrier field or sync object of a block outside the partition. Every clause on a command concludes that exec answers a next state. -/
def Obligations.BarrierArrivalsAndRelease : Prop :=
  (∀ (s : State) (b : Nat) (a : Acc) (rest : List Acc), s.staged b → (s.blk b).ctlIn = a :: rest → a.writes 0x1508 = true →
    let k := s.blk b
    runs (.barrierArrival b) s (fun t =>
      let q := t.blk b
      sameMemory s t ∧ sameRegisters s t ∧ q.expect = k.expect ∧ q.ctlIn = rest ∧ q.gen = k.gen ∧
      (k.count < k.expect → q.count = k.count + 1 ∧ q.early = k.early) ∧
      (k.expect ≤ k.count → k.early < k.expect → q.count = k.count ∧ q.early = k.early + 1) ∧
      (k.expect ≤ k.count → k.expect ≤ k.early → q.count = k.count ∧ q.early = k.early ∧
        t.logSlots.any (fun l => l.kind == 2 && l.id == b) = true ∧
        t = ((s.setBlk b { k with ctlIn := rest }).logBlk b 8 [k.barstat.toNat]).reply b a 6 []))) ∧
  (∀ (s : State) (b p : Nat), s.staged b → s.barParent b = some p → s.partOfBlk b ≠ 0xFF →
    (s.barArrived b = true → (s.blk b).barUp = false → runs (.barrierChildArrival b) s (fun t =>
      (t.blk b).barUp = true ∧ b ∈ (t.blk p).childArr ∧ ∀ d, d ≠ b → d ≠ p → t.blk d = s.blk d)) ∧
    (s.barArrived b = false ∨ (s.blk b).barUp = true → exec (.barrierChildArrival b) s = .next s)) ∧
  (∀ (s : State) (b : Nat), s.staged b → s.partOfBlk b ≠ 0xFF →
    (s.barArrived (s.barRoot b) = false → exec (.barrierRelease b) s = .next s) ∧
    (s.barArrived (s.barRoot b) = true → runs (.barrierRelease b) s (fun t => sameMemory s t ∧ sameRegisters s t ∧
      ∀ d, let k := s.blk d
        let q := t.blk d
        q.expect = k.expect ∧
        (d ∈ s.partBlks b → q.childArr = [] ∧ q.barUp = false ∧
          (0 < k.expect → q.count = k.early ∧ q.early = 0 ∧ q.gen = !k.gen ∧ q.syncIn = k.syncIn ++ [relAcc d k.barIdx]) ∧
          (k.expect = 0 → q.count = k.count ∧ q.early = k.early ∧ q.gen = k.gen ∧ q.syncIn = k.syncIn)) ∧
        (d ∉ s.partBlks b → q.count = k.count ∧ q.early = k.early ∧ q.gen = k.gen ∧ q.childArr = k.childArr ∧ q.sync = k.sync ∧ q.syncIn = k.syncIn))))

/-- The oldest message of the signals channel of a staged packet port, well formed, from the HOST or OWN class with its partition's tenant tag through a port of that partition, goes to the block of its object: by the mesh at level 3, or at the port's own unfenced block into the sync unit, HOST_SIGNAL_ADD, HOST_SIGNAL_SET and HOST_SIGNAL_READ as the operation ADD, SET or READ of the object when the block's SIGPERM bit is set; without permission no block changes and the refusal is logged. DOORBELL queues the store's doorbell at the own port's attachment block, or at that of the partition's lowest port in service, or sends it there; with no port it is refused and logged. DOORBELL_QUEUED moves it into a queue of fewer than 64 and answers the store; DOORBELL_SEND with credit for 2 flits sends it. ISLAND_CLEAR of an ordered island whose blocks are fenced makes every byte of its blocks 0 with empty FE bits and every integer and f register of its cobbles 0, and touches no byte of another island. ISLAND_REPORTS_CLEAR applies each slot's recorded mode, cobble mode where a block is out of service. PARK of an island all-waiting for THR ticks with PARKEN 1 parks it; WAITCTL_WRITE writes the defined bits and ends parking when it clears PARKEN. Model choice: log 60, 61, 83. Every clause on a command concludes that exec answers a next state. -/
def Obligations.SignalsDoorbellsClearAndParking : Prop :=
  ∀ (s : State),
    (∀ pp tenant cls m ms, s.stagedPp pp → lget [] (s.port (ppPort pp)).inbox 1 = m :: ms → sigOk m = true →
      s.sigAllowed pp (fld m 6 1) (fld m 4 2) tenant cls = true →
      let b := fld m 4 2 / 16
      let i := fld m 4 2 % 16
      let o := ppBlk pp
      ∀ op cmd, (op = 0 ∧ cmd = Instr.hostSignalAdd pp tenant cls) ∨ (op = 1 ∧ cmd = .hostSignalSet pp tenant cls) ∨
          (op = 2 ∧ cmd = .hostSignalRead pp tenant cls) → fld m 1 1 = op →
        (b ≠ o → runs cmd s (fun t => sameMemory s t ∧ sameRegisters s t ∧ (∀ d, (t.blk d).sync = (s.blk d).sync) ∧
          ∃ p, (t.blk o).niq = (s.blk o).niq ++ [p] ∧ p.dst = b ∧ p.level = 3 ∧ p.pay = .signal { port := pp, msg := m })) ∧
        (b = o → (s.blk b).fence = false → (s.blk b).rstFence = false →
          ((s.blk b).sigperm.getLsbD i = true → runs cmd s (fun t => sameMemory s t ∧ sameRegisters s t ∧
            (t.blk b).sync = (s.blk b).sync ∧ ∃ a, (t.blk b).syncIn = (s.blk b).syncIn ++ [a] ∧ a.remote = true ∧
            a.sport = spSignal ∧ a.syncObj = i ∧ a.syncOp = (if op = 0 then 1 else if op = 1 then 0 else 2) ∧
            (op ≠ 2 → a.val = fld m 8 4))) ∧
          ((s.blk b).sigperm.getLsbD i = false → runs cmd s (fun t => (∀ d, t.blk d = s.blk d) ∧
            t.logSlots.any (fun l => l.kind == 4 && l.id == pp) = true)))) ∧
    (∀ b a rest, s.staged b → (s.blk b).ctlIn = a :: rest → a.writes 0x1510 = true →
      let d := Doorbell.mk a.sblk a.sport a.tag (s.partOfBlk b) (BitVec.ofNat 64 a.val) s.pktime a.level
      let by' := if s.ppUp (islOfBlk b) then some (islOfBlk b) else s.partPort (s.partOfBlk b)
      (by' = none → exec (.doorbell b) s = .next ((s.setBlk b { s.blk b with ctlIn := rest }).bellDrop b d 0xFF)) ∧
      (∀ i, by' = some i → runs (.doorbell b) s (fun t => sameMemory s t ∧ sameRegisters s t ∧ (t.blk b).ctlIn = rest ∧
        (ppBlk i = b → (t.blk b).bellIn = (s.blk b).bellIn ++ [(i, d)]) ∧
        (ppBlk i ≠ b → ∃ p, (t.blk b).niq = (s.blk b).niq ++ [p] ∧ p.dst = ppBlk i ∧ p.pay = .doorbell i d)))) ∧
    (∀ pp d rest, s.stagedPp pp → pp < 10 → (s.blk (ppBlk pp)).bellIn = (pp, d) :: rest → s.ppUp pp = false →
      exec (.doorbellQueued pp) s = .next ((s.modBlk (ppBlk pp) (fun k => { k with bellIn := rest })).bellDrop (ppBlk pp) d pp)) ∧
    (∀ pp d rest, s.stagedPp pp → pp < 10 → (s.blk (ppBlk pp)).bellIn = (pp, d) :: rest → s.ppUp pp = true →
      (64 ≤ (s.port (ppPort pp)).bells.length → exec (.doorbellQueued pp) s = .next s) ∧
      ((s.port (ppPort pp)).bells.length < 64 → runs (.doorbellQueued pp) s (fun t =>
        (t.port (ppPort pp)).bells = (s.port (ppPort pp)).bells ++ [d] ∧ (t.blk (ppBlk pp)).bellIn = rest ∧ sameMemory s t))) ∧
    (∀ pp d rest, s.stagedPp pp → (s.port (ppPort pp)).bells = d :: rest → (s.port (ppPort pp)).st = 2 →
      2 * ((lget [] (s.port (ppPort pp)).vcq 1).length + 1) ≤ lget 0 (s.port (ppPort pp)).cred 1 →
      runs (.doorbellSend pp) s (fun t => let q := s.port (ppPort pp)
        (t.port (ppPort pp)).bells = rest ∧ (t.port (ppPort pp)).bellSeq = q.bellSeq + 1 ∧
        lget [] (t.port (ppPort pp)).vcq 1 = lget [] q.vcq 1 ++ [bellMsg d q.bellSeq])) ∧
    (∀ i, i < 10 → (s.isl i).ordered = true → s.islFenced i = true → runs (.islandClear i) s (fun t =>
      (t.isl i).ordered = false ∧ (t.isl i).cleared = true ∧ (t.isl i).wpolicy = (s.isl i).wpolicy ∧
      (∀ x, islOfBlk (blkOfFlat x) = i → t.rd8 x = 0 ∧ t.feBit x = false) ∧
      (∀ x, islOfBlk (blkOfFlat x) ≠ i → t.rd8 x = s.rd8 x ∧ t.feBit x = s.feBit x) ∧
      (∀ c, islOf c = i → (t.cob c).ints = [] ∧ (t.cob c).fps = []) ∧
      (∀ c, islOf c ≠ i → t.cob c = s.cob c) ∧
      (∀ b, islOfBlk b = i → (t.blk b).sync = [] ∧ (t.blk b).sigperm = 0 ∧
        (t.blk b).winCtl = [] ∧ (t.blk b).expect = (s.blk b).expect ∧ (t.blk b).cecnt = (s.blk b).cecnt))) ∧
    (∀ i, i < 10 → (s.isl i).cleared = true → runs (.islandReportsClear i) s (fun t =>
      (t.isl i).cleared = false ∧ sameMemory s t ∧
      ∀ k < 20, slotIsl k = i → (lget {} t.slots k).active =
        ((lget {} s.slots k).reqPz && (List.range 16).all (fun j => !s.outOfService (blkOfSlot k j))))) ∧
    (∀ i, i < 10 → (s.isl i).waitctl.getLsbD 31 = true → (s.isl i).parked = false →
      ((s.isl i).waitctl.toNat % 2 ^ 24 ≤ (s.isl i).waitRun → runs (.park i) s (fun t =>
        (t.isl i).parked = true ∧ sameMemory s t ∧ sameRegisters s t)) ∧
      ((s.isl i).waitRun < (s.isl i).waitctl.toNat % 2 ^ 24 → exec (.park i) s = .next s)) ∧
    (∀ i v, i < 10 → runs (.waitctlWrite i v) s (fun t =>
      (t.isl i).waitctl = v &&& 0x87FFFFFF#32 ∧ (t.isl i).parked = ((s.isl i).parked && v.getLsbD 31) ∧
      sameMemory s t ∧ sameRegisters s t))

/-- The state of a channel after a step. -/
def chanIs (t : State) (b ch : Nat) (c : Chan) : Prop := (t.blk b).chan ch = c

/-- CHN_PROD_WRITE moves PROD of an allotted channel within the ring and is refused otherwise. DESCRIPTOR_START of an idle channel with CONS not PROD reads the descriptor at CONS under a free tag through the engine's own port; once it is answered, one that passes the checks of R296 starts, one that fails a check makes its channel fail with that code, a poisoned one with code 1; one with ORD waits for the one before. DMA_PIECE_REQUEST issues, under a free tag, the next request of the first channel after the last served one that has one, and nothing while its last request waits; a piece stays within its row of n0 bytes and within one 64-byte unit at both ends. DMA_ANSWER of a read keeps the bytes under their positions; with an error status the channel fails with that status' code; the answered completion ADD advances CONS, or fails the channel (code 10 at an overflow). DESCRIPTOR_COMPLETE without SYNCEN advances CONS, with SYNCEN it sends an ADD of INC to SYNCID. DESCRIPTOR_TIMEOUT past the tick of a TIMEOUT fails the channel with code 9. DESCRIPTOR_DRAINED records code, index and address, logs the failure and leaves the channel FAILED, with an ADD of 1 to ERRSYNC. In FAILED, CLR resumes after the failed descriptor and ABORT at PROD; otherwise neither changes the channel. Model choice: log 56. Every clause on a command concludes that exec answers a next state. -/
def Obligations.DmaDescriptorsRunInOrder : Prop :=
  ∀ (s : State) (b ch : Nat), s.staged b →
    let k := s.blk b
    let c := k.chan ch
    (∀ a rest, k.ctlIn = a :: rest → a.kind = .wr → isChanOff a.off = true → chanOf a.off = ch →
      let u := s.setBlk b { k with ctlIn := rest }
      (chanReg a.off = 8 →
        let v := BitVec.ofNat 16 a.val
        let bad := k.dmaAlloc ≤ ch ∨ 2 ^ bits c.cfg.toNat 28 4 < (v - c.cons).toNat
        (bad → exec (.chnProdWrite b) s = .next (u.reply b a 6 [])) ∧
        (¬ bad → exec (.chnProdWrite b) s = .next ((u.modChan b ch (fun c => { c with prod := v })).reply b a 0 []))) ∧
      (chanReg a.off = 20 → ch < k.dmaAlloc →
        (bit a.val 0 = true → bit a.val 1 = false → runs (.clr b) s (fun t => chanIs t b ch
          (if c.stat = 2 then { c with cons := c.fidx + 1, stat := 0 } else c))) ∧
        (bit a.val 1 = true → runs (.abort b) s (fun t => chanIs t b ch
          (if c.stat = 2 then { c with cons := c.prod, stat := 0 } else c))))) ∧
    (s.engOff b 0 = false → s.suspected false b ch = false → c.stat < 2 → c.descs = [] → c.cons ≠ c.prod →
      let off := (bits c.cfg.toNat 6 15 * 64 + c.cons.toNat % 2 ^ bits c.cfg.toNat 28 4 * 64) % 2 ^ 21
      (c.dread = none →
        (k.dmaTag = none ∨ k.dmaHeld = true → exec (.descriptorStart b ch) s = .next s) ∧
        (∀ tg, k.dmaTag = some tg → k.dmaHeld = false →
          tg < 256 ∧ (257, tg) ∉ k.gone ∧ tg ∉ k.dmaGone ∧ (∀ e ∈ k.chans, tg ∉ e.2.tags) ∧
          exec (.descriptorStart b ch) s = .next (((s.modChan b ch (fun c => { c with
            stat := 1, dread := some (tg, s.ticks, none) })).engStep b 0).send b b {
              kind := .rd, space := 0, off := off, size := 64, sblk := b, sport := 257, tag := tg, sdie := s.pos.toNat,
              tenant := s.tenantOf b }))) ∧
      (∀ tg start st raw, c.dread = some (tg, start, some (st, raw)) →
        let d := Desc.ofBytes c.cons.toNat raw
        let d := { d with start := if d.ord then s.ticks else start }
        let ends := fun (r : Chan) => runs (.descriptorStart b ch) s (fun t => sameMemory s t ∧ chanIs t b ch r)
        (st = 0 → s.descCheck b c d raw = none → ends { c with
          stat := 1, dread := none, descs := [{ d with port := sbPort (s.sbind d.bind), bound := s.needsBind b d }] }) ∧
        (∀ code adr, st = 0 → s.descCheck b c d raw = some (code, adr) → ends { c with
          stat := 3, dread := none, pcode := BitVec.ofNat 8 code, pidx := c.cons, paddr := adr, puser := d.user,
          descs := [{ d with stopped := true }] }) ∧
        (st ≠ 0 → runs (.descriptorStart b ch) s (fun t => sameMemory s t ∧ let q := (t.blk b).chan ch
          q.stat = 3 ∧ q.pcode = 1 ∧ q.pidx = c.cons ∧ q.paddr = none ∧ q.puser = 0)))) ∧
    (∀ x tg start st raw, c.descs = [x] → c.dread = some (tg, start, some (st, raw)) → (Desc.ofBytes 0 raw).ord = true →
      exec (.descriptorStart b ch) s = .next s) ∧
    (∀ d w, ch < 16 → s.engOff b 0 = false → s.suspHeld false b ch = false → s.chanNext b ch = some (d, w) →
      (∀ m < 16, (m + 15 + 15 * k.dmaLast) % 16 < (ch + 15 + 15 * k.dmaLast) % 16 →
        s.suspHeld false b m = true ∨ s.chanNext b m = none) →
      (k.dmaHeld = true → exec (.dmaPieceRequest b) s = .next s) ∧
      (∀ tg, k.dmaHeld = false → k.dmaTag = some tg →
        exec (.dmaPieceRequest b) s = .next (((s.setBlk b { k with dmaLast := ch }).engStep b 0).dmaIssue b ch tg d w))) ∧
    (∀ (d : Desc) n, 0 < d.n0 → (let l := d.pieceLen n false 0
      0 < l ∧ n % d.n0 + l ≤ d.n0 ∧ d.srcAt n % 64 + l ≤ 64 ∧ d.dstAt n % 64 + l ≤ 64)) ∧
    (∀ a rest, k.dmaAns = a :: rest →
      (∀ d p rd, k.dmaFind a.tag = some (ch, d, p, rd) → d.stopped = false →
        let got := if bits p.adr 54 2 = 0 then (a.data.drop (p.adr % 32)).take p.len else a.data
        let less := fun (x : Desc) => { x with reads := x.reads.erase p, writes := x.writes.erase p }
        (a.status = 0 → runs (.dmaAnswer b) s (fun t => sameMemory s t ∧ chanIs t b ch { c with
          descs := c.descs.map (fun x => if x.idx = d.idx then
            (if rd then { less x with got := x.got ++ got.mapIdx (fun i v => (p.start + i, v)) } else less x) else x) })) ∧
        (a.status ≠ 0 → c.stat ≠ 3 → runs (.dmaAnswer b) s (fun t => sameMemory s t ∧ let q := (t.blk b).chan ch
          q.stat = 3 ∧ q.pcode = BitVec.ofNat 8 (dmaCode a.cause a.status) ∧ q.pidx = BitVec.ofNat 16 d.idx ∧ q.paddr = some p.adr ∧
          q.cons = c.cons))) ∧
      (∀ d ds, k.dmaFind a.tag = none → c.descs = d :: ds → d.signalled = true → d.sigTag = a.tag →
        (∀ e ∈ k.chans, e.2.descs.head?.any (fun x => x.signalled && x.sigTag == a.tag) = true → e.1 = ch) →
        (a.status = 0 → runs (.dmaAnswer b) s (fun t => sameMemory s t ∧ ((t.blk b).chan ch).cons = c.cons + 1 ∧
          ((t.blk b).chan ch).descs = ds)) ∧
        (a.status ≠ 0 → c.stat ≠ 3 → runs (.dmaAnswer b) s (fun t => sameMemory s t ∧ let q := (t.blk b).chan ch
          q.stat = 3 ∧ q.pcode = BitVec.ofNat 8 (if a.status = 6 then 10 else dmaCode 0 a.status) ∧ q.cons = c.cons)))) ∧
    (∀ d ds, c.descs = d :: ds → d.finished = true → d.signalled = false →
      (d.syncen = false → runs (.descriptorComplete b ch) s (fun t => sameMemory s t ∧
        ((t.blk b).chan ch).cons = c.cons + 1 ∧ ((t.blk b).chan ch).descs = ds)) ∧
      (d.syncen = true → k.dmaTag = none → exec (.descriptorComplete b ch) s = .next s) ∧
      (∀ tg, d.syncen = true → k.dmaTag = some tg → d.inc < 2 ^ 16 → d.syncid / 16 = b → k.fence = false →
        k.rstFence = false →
        runs (.descriptorComplete b ch) s (fun t => sameMemory s t ∧ ((t.blk b).chan ch).cons = c.cons ∧
          ((t.blk b).chan ch).descs.head? = some { d with signalled := true, sigTag := tg } ∧
          ∃ a, (t.blk b).syncIn = k.syncIn ++ [a] ∧ a.syncObj = d.syncid % 16 ∧ a.syncOp = 1 ∧ a.val = d.inc ∧
            a.sport = 257 ∧ a.tag = tg ∧ a.level = d.prio))) ∧
    (∀ d, c.descs.find? (fun d => !d.stopped && !d.signalled && d.start + d.timeout ≤ s.ticks) = some d → c.stat ≠ 3 →
      runs (.descriptorTimeout b ch) s (fun t => sameMemory s t ∧ let q := (t.blk b).chan ch
        q.stat = 3 ∧ q.pcode = 9 ∧ q.pidx = BitVec.ofNat 16 d.idx ∧ q.descs = c.descs.map (fun x =>
          if (d.idx + 65536 - c.cons.toNat) % 65536 ≤ (x.idx + 65536 - c.cons.toNat) % 65536
          then { x with stopped := true } else x))) ∧
    (∀ adr, c.stat = 3 → c.paddr = some adr → (∀ tg start, c.dread ≠ some (tg, start, none)) →
      c.descs.all (fun d => d.stopped && d.reads.isEmpty && d.writes.isEmpty && !d.signalled) = true →
      runs (.descriptorDrained b ch) s (fun t => sameMemory s t ∧ t.logSlots.any (fun l => l.kind == 2 && l.id == b) = true ∧
        chanIs t b ch { c with
          stat := 2, code := c.pcode, fidx := c.pidx, faddr := BitVec.ofNat 56 adr, descs := [], dread := none } ∧
        (c.err.getLsbD 31 = true → bits c.err.toNat 0 13 / 16 = b → k.fence = false → k.rstFence = false →
          k.dmaTag.isSome = true → ∃ a, (t.blk b).syncIn = k.syncIn ++ [a] ∧
            a.syncObj = bits c.err.toNat 0 13 % 16 ∧ a.syncOp = 1 ∧ a.val = 1)))

/-- RD, WR, WRM and RLY send the next command of their kind for an UP port under a tag that no command holds, queueing its beats; with no free tag they wait; a port that is not UP answers LINK, poisoned data is answered as poison. RSP and ACK of a held tag free it and answer the requester. INBOUND_RLY without a RELAY binding is answered STATUS 3 and logged, with one it becomes a write of class REMOTE under a free tag; it waits while all 256 tags are in use or a relay write waits. OUTBOUND_BEAT sends within the window one transfer with its check wires and a REQ transition: a replayed one, else the high half of a beat begun, else the next beat (its low half at width 128). BEAT_ANSWER drops the oldest unanswered beat; BEAT_NAK makes it and all after it leave again in order, the first with the resume mark (from the low half of its beat), and retires the port with cause 10 past LRETRY.LIM consecutive failures or 11 past the rate limit. REPLAY_RATE_WINDOW clears the count. INBOUND_BEAT accepts an intact beat, answers another with NAK, counts it and discards until the resume mark. QUIET_WINDOW_PROBE judges a beat in the same way and counts nothing. None changes memory. Model choice: log 57. Every clause on a command concludes that exec answers a next state. -/
def Obligations.StreamPortsCarryCommandsAndReplay : Prop :=
  ∀ (s : State) (p : Nat), s.stagedSp p →
    let q := s.port p
    let b := spBlk p
    (∀ c i, s.nextCmd p = some c → s.engOff b 1 = false →
      (i, c.kind) ∈ [(Instr.rd p, 0), (.wr p, 1), (.wrm p, 2), (.rly p, 3)] →
      let u := (s.modBlk b (fun k => { k with portIn := k.portIn.erase (p, c) })).modPort p (fun q => { q with lastBlk := c.sblk })
      (q.st ≠ 2 → exec i s = .next (u.portReply p c (6, 12) [])) ∧
      (q.st = 2 → c.poison = true → exec i s = .next (u.portReply p c (4, 0) [])) ∧
      (q.st = 2 → c.poison = false → q.freeTag = none → exec i s = .next s) ∧
      (∀ tg, q.st = 2 → c.poison = false → q.freeTag = some tg → tg < 256 ∧ (∀ e ∈ q.tags, e.1 ≠ tg) ∧ tg ∉ q.gone ∧
        runs i s (fun t => sameMemory s t ∧ (tg, c) ∈ (t.port p).tags ∧ (t.port p).outq = q.outq ++ c.toBeats tg ∧
          (t.blk b).portIn = (s.blk b).portIn.erase (p, c)))) ∧
    (∀ h rest e, q.rx = h :: rest → q.tags.find? (fun e => e.1 = bTag h) = some e → e.2.sblk ≠ b →
      let n := if bStatus h = 0 then bLen h else 0
      let freed := fun (t : State) (l : List (BitVec 256)) (d : List Byte) => sameMemory s t ∧ (t.port p).rx = l ∧
        (t.port p).tags = q.tags.filter (fun x => x.1 != bTag h) ∧
        ∃ pk, (t.blk b).niq = (s.blk b).niq ++ [pk] ∧ pk.dst = e.2.sblk ∧ pk.level = e.2.level ∧
          pk.pay = .ans { sport := e.2.sport, tag := e.2.tag, status := (strmStatus e.2.kind (bStatus h)).1,
                          cause := (strmStatus e.2.kind (bStatus h)).2, data := d }
      (bType h = 8 → n ≤ rest.length → runs (.rsp p) s (fun t => freed t (rest.drop n) ((rest.take n).flatMap beatBytes))) ∧
      (bType h = 8 → rest.length < n → exec (.rsp p) s = .next s) ∧
      (bType h = 9 → runs (.ack p) s (fun t => freed t rest []))) ∧
    (∀ h rest, q.rx = h :: rest → bType h = 4 → bLen h ≤ rest.length →
      let held := 256 ≤ (s.blk b).rlyUsed.length ∨ ∃ x ∈ (s.blk b).niq, x.sport = 258 ∧ x.cls ≠ 1
      (held → exec (.inboundRly p) s = .next s) ∧
      (¬ held → (∀ r, s.bindOf p = some r → sbKind r ≠ 1) → runs (.inboundRly p) s (fun t => sameMemory s t ∧
        (t.port p).rx = rest.drop (bLen h) ∧ (t.port p).outq = q.outq ++ [ackBeat (bTag h) 3] ∧
        t.logSlots.any (fun l => l.kind == 3 && l.id == p) = true)) ∧
      (∀ r, ¬ held → s.bindOf p = some r → sbKind r = 1 →
        rlyMask (bLen h) (bits h.toNat 192 32) (bits h.toNat 160 32) = 0 → runs (.inboundRly p) s (fun t => sameMemory s t ∧
          (t.port p).rx = rest.drop (bLen h) ∧ (t.port p).outq = q.outq ++ [ackBeat (bTag h) 0])) ∧
      (∀ r sp blk cob off, ¬ held → s.bindOf p = some r → sbKind r = 1 →
        let m := rlyMask (bLen h) (bits h.toNat 192 32) (bits h.toNat 160 32)
        let g := bits h.toNat 0 56
        s.global b (g + lowBit m) = .die sp blk cob off → sp < 2 → m ≠ 0 →
        (∃ o, s.global b (g + lowBit m + (highBit m - lowBit m + 1) - 1) = .die sp blk cob o) →
        runs (.inboundRly p) s (fun t => sameMemory s t ∧ (t.port p).rx = rest.drop (bLen h) ∧
          ∃ pk a, (t.blk b).niq = (s.blk b).niq ++ [pk] ∧ pk.dst = blk ∧ pk.pay = .acc a ∧ a.kind = .wr ∧ a.space = sp ∧
            a.off = off ∧ a.tag < 256 ∧ a.tag ∉ (s.blk b).rlyUsed ∧ a.sclass = 2 ∧ a.sdie = sbFar r ∧ a.remote = true ∧ a.mask = m / 2 ^ lowBit m))) ∧
    (q.st = 2 →
      (q.win ≤ q.unans.length + q.dropAns → exec (.outboundBeat p) s = .next s) ∧
      (q.unans.length + q.dropAns < q.win →
        let sends := fun (x : Sent) (resend : List Sent) (half : Option Sent) (outq : List (BitVec 256)) (n : Nat) =>
          runs (.outboundBeat p) s (fun t => sameMemory s t ∧ (t.port p).dOut = x.wires ∧ (t.port p).xOut = q.extra x ∧
            (t.port p).reqO = !q.reqO ∧ (t.port p).unans = q.unans ++ [x] ∧ (t.port p).resend = resend ∧
            (t.port p).outHalf = half ∧ (t.port p).outq = outq ∧ (t.port p).txN = n)
        (∀ x rest, q.resend = x :: rest → sends x rest q.outHalf q.outq q.txN) ∧
        (∀ x, q.resend = [] → q.outHalf = some x → sends x [] none q.outq q.txN) ∧
        (∀ d rest, q.resend = [] → q.outHalf = none → q.outq = d :: rest →
          (q.w128 = false → sends { data := d, n := q.txN } [] none rest (q.txN + 1)) ∧
          (q.w128 = true → sends { data := d, n := q.txN, half := 1 } []
            (some { data := d, n := q.txN + 1, half := 2 }) rest (q.txN + 2))))) ∧
    (∀ x rest, q.dropAns = 0 → q.unans = x :: rest →
      exec (.beatAnswer p) s = .next (s.setPort p { q with unans := rest, consec := if x.again then 0 else q.consec }) ∧
      (let out := fun (m : Bool) (y : Sent) => { y with mark := m, again := true }
       let again := (if x.half = 2 then [out true { x with half := 1, n := x.n - 1 }, out false x] else [out true x]) ++
         rest.map (out false) ++ q.resend
       runs (.beatNak p true) s (fun t => sameMemory s t ∧ (t.port p).unans = [] ∧ (t.port p).resend = again ∧
        (t.port p).dropAns = rest.length ∧ (t.port p).st = q.st ∧ (t.port p).rate = q.rate ∧ (t.port p).consec = q.consec ∧
        (t.port p).replay = satInc q.replay) ∧
       (q.st = 2 → x.again = true → q.lretry.toNat % 16 < q.consec + 1 →
        runs (.beatNak p false) s (fun t => (t.port p).st = 4 ∧ (t.port p).cause = 10)) ∧
       (q.st = 2 → (x.again = true → q.consec + 1 ≤ q.lretry.toNat % 16) → q.lretry.toNat / 2 ^ 16 < q.rate + 1 →
        runs (.beatNak p false) s (fun t => (t.port p).st = 4 ∧ (t.port p).cause = 11)) ∧
       (q.st = 2 → (x.again = true → q.consec + 1 ≤ q.lretry.toNat % 16) → q.rate + 1 ≤ q.lretry.toNat / 2 ^ 16 →
        runs (.beatNak p false) s (fun t => sameMemory s t ∧ (t.port p).st = 2 ∧ (t.port p).unans = [] ∧
          (t.port p).resend = again ∧ (t.port p).rate = q.rate + 1 ∧ (t.port p).replay = satInc q.replay)))) ∧
    (q.rate ≤ q.lretry.toNat / 2 ^ 16 → exec (.replayRateWindow p) s = .next (s.setPort p { q with rate := 0 })) ∧
    (q.lretry.toNat / 2 ^ 16 < q.rate → q.st = 2 → runs (.replayRateWindow p) s (fun t =>
      (t.port p).st = 4 ∧ (t.port p).cause = 11 ∧ (t.port p).rate = 0)) ∧
    (∀ d x, q.st = 2 → q.rx.length < 32 →
      let good := fun (e : BitVec 256) => q.check e x = if q.disc then 1 else 0
      let taken := fun (t : State) (e : BitVec 256) => sameMemory s t ∧ (t.port p).disc = false ∧
        (q.w128 = false → (t.port p).rx = q.rx ++ [e]) ∧
        (q.w128 = true → q.rxHalf = none → (t.port p).rx = q.rx ∧ (t.port p).rxHalf = some (e.setWidth 128)) ∧
        (∀ l, q.w128 = true → q.rxHalf = some l →
          (t.port p).rx = q.rx ++ [e.setWidth 128 ++ l] ∧ (t.port p).rxHalf = none) ∧
        (t.port p).ackO = !q.ackO ∧ (t.port p).nakO = q.nakO ∧ (t.port p).crcerr = q.crcerr
      let turned := fun (t : State) => sameMemory s t ∧ (t.port p).rx = q.rx ∧ (t.port p).disc = true ∧ (t.port p).rxHalf = none ∧
        (t.port p).ackO = q.ackO ∧ (t.port p).nakO = !q.nakO
      (good (q.demux d x) → runs (.inboundBeat p d x) s (fun t => taken t (q.demux d x))) ∧
      (¬ good (q.demux d x) → runs (.inboundBeat p d x) s (fun t => turned t ∧ (t.port p).crcerr = satInc q.crcerr)) ∧
      (q.chk = true → q.prLo = none ∨ q.prHi = none →
        (good d → runs (.quietWindowProbe p d x) s (fun t => taken t d)) ∧
        (¬ good d → runs (.quietWindowProbe p d x) s (fun t => turned t ∧ (t.port p).crcerr = q.crcerr))))

/-- At an UP packet port FRAME_SEND sends a replayed frame first, and otherwise the next frame of the chosen virtual channel: it takes SEQ, SEQ rises by 1, the frame stays unacknowledged, and its flits with the header, never more than the credit, leave the credit. DATA_FRAME of an intact frame without NAKF whose SEQ is the expected one is accepted: the expected SEQ rises, its flits are freed, and the last frame of a message delivers the whole message; a duplicate is only reported; one ahead changes neither; a damaged one is discarded with NAKF due and counted. CONTROL_FRAME of an intact header without NAKF acknowledges every frame up to ACKSEQ; with NAKF it also replays the rest, unless it names the ACKSEQ of a replay begun within 8 steps; a damaged one is only counted. ACKSEQ_REPORT, with no data frame ready, and CONTROL_FRAME_INTERVAL send a control frame with the last accepted SEQ and the due NAKF. FRAME_REPLAY_TIMEOUT replays every unacknowledged frame. None changes memory or a cobble. Model choice: log 59. Every clause on a command concludes that exec answers a next state. -/
def Obligations.FramesAreOrderedCreditedAndReplayed : Prop :=
  ∀ (s : State) (pp : Nat), s.stagedPp pp →
    let p := ppPort pp
    let q := s.port p
    q.st = 2 →
    let still := fun (t : State) => sameMemory s t ∧ sameRegisters s t
    (∀ f rest, q.refr = f :: rest → runs (.frameSend pp) s (fun t => still t ∧ (t.port p).refr = rest ∧
      (t.port p).unacked = q.unacked ∧ (t.port p).seq = q.seq)) ∧
    (∀ vc m ms, q.refr = [] → q.nextVc = some vc → lget [] q.vcq vc = m :: ms →
      let n := min 16 (m.length / 32)
      let wire := if q.vmaj = 1 && vc = 3 then 0 else vc
      n + 1 ≤ lget 0 q.cred wire ∧ runs (.frameSend pp) s (fun t => still t ∧ (t.port p).seq = q.seq + 1 ∧
        lget 0 (t.port p).cred wire = lget 0 q.cred wire - (n + 1) ∧ ∃ f, (t.port p).unacked = q.unacked ++ [f] ∧
          f.seq = q.seq ∧ f.vc = wire ∧ f.fl = beatsFrom n m ∧ (f.last = true ↔ m.drop (32 * n) = []))) ∧
    (q.refr = [] → q.nextVc = none → exec (.frameSend pp) s = .next s) ∧
    (∀ (hf : BitVec 272) (body : List (BitVec 272)),
      let h : BitVec 256 := q.flitData hf
      let good := q.flitOk true hf && body.all (q.flitOk false) && capF h 252 4 == 1 && capF h 220 4 + 1 == body.length
      let vc := capF h 224 2
      let d := (BitVec.ofNat 12 (capF h 240 12) - q.exp).toNat
      let fl := body.map q.flitData
      (good = false → runs (.dataFrame pp (hf :: body)) s (fun t => still t ∧ (t.port p).rdisc = true ∧
        (t.port p).nakDue = true ∧ (t.port p).crcerr = satInc q.crcerr ∧ (t.port p).exp = q.exp ∧
        (t.port p).inbox = q.inbox ∧ (t.port p).asm = q.asm)) ∧
      (good = true → h.getLsbD 226 = false →
        (d = 0 → (p < 170 ∨ vc = 0 ∨ vc = 3) → q.dropMsg = [] → runs (.dataFrame pp (hf :: body)) s (fun t => still t ∧
          (t.port p).exp = q.exp + 1 ∧ (t.port p).rdisc = false ∧ (t.port p).ackDue = true ∧
          lget 0 (t.port p).freed vc = lget 0 q.freed vc + fl.length + 1 ∧
          (h.getLsbD 219 = false → lget [] (t.port p).asm vc = lget [] q.asm vc ++ fl ∧ (t.port p).inbox = q.inbox) ∧
          (h.getLsbD 219 = true → lget [] (t.port p).inbox vc = lget [] q.inbox vc ++
            [(lget [] q.asm vc ++ fl).flatMap beatBytes]))) ∧
        (2048 ≤ d → runs (.dataFrame pp (hf :: body)) s (fun t => still t ∧ (t.port p).exp = q.exp ∧
          (t.port p).ackDue = true ∧ (t.port p).inbox = q.inbox ∧ (t.port p).asm = q.asm ∧ (t.port p).freed = q.freed)) ∧
        (0 < d → d < 2048 → runs (.dataFrame pp (hf :: body)) s (fun t => still t ∧ (t.port p).exp = q.exp ∧
          (t.port p).ackDue = q.ackDue ∧ (t.port p).inbox = q.inbox ∧ (t.port p).asm = q.asm))) ∧
      (q.flitOk true hf = true → capF h 252 4 = 2 → h.getLsbD 227 = true →
        let a := BitVec.ofNat 12 (capF h 228 12)
        let left := q.unacked.filter (fun f => 2048 ≤ (a - f.seq).toNat)
        let held := fun (t : State) => still t ∧ (t.port p).exp = q.exp ∧ (t.port p).inbox = q.inbox ∧ (t.port p).unacked = left
        (h.getLsbD 226 = false ∨ (q.rep.any (fun r => r.1 == a)) = true → runs (.controlFrame pp hf) s (fun t => held t ∧
          (t.port p).replay = q.replay ∧ (t.port p).rep = q.rep)) ∧
        (h.getLsbD 226 = true → (q.rep.any (fun r => r.1 == a)) = false → left ≠ [] →
          left.length < q.unacked.length ∨ q.lastRep ≠ some q.ackBase → q.rate + 1 ≤ q.lretry.toNat / 2 ^ 16 →
          runs (.controlFrame pp hf) s (fun t => held t ∧ (t.port p).refr = left ∧ (t.port p).rep = some (a, 0) ∧
            (t.port p).replay = satInc q.replay))) ∧
      (q.flitOk true hf = false → runs (.controlFrame pp hf) s (fun t => still t ∧ (t.port p).crcerr = satInc q.crcerr ∧
        (t.port p).unacked = q.unacked ∧ (t.port p).nakDue = q.nakDue ∧ (t.port p).inbox = q.inbox))) ∧
    (∀ i, i = Instr.controlFrameInterval pp ∨ (i = Instr.ackseqReport pp ∧ (q.ackDue = true ∨ q.nakDue = true) ∧ q.refr = [] ∧ q.nextVc = none) →
      runs i s (fun t => still t ∧ ∃ o : BitVec 256,
        capF o 252 4 = 2 ∧ capF o 228 12 = (q.exp - 1).toNat ∧ o.getLsbD 227 = true ∧ o.getLsbD 226 = q.nakDue ∧
        (t.port p).ackDue = false ∧ (t.port p).nakDue = false ∧ (t.port p).frameO = true ∧
        (q.w128 = false → (t.port p).dOut = o ∧ (t.port p).kOut = flitCrc false true o ∧
          (t.port p).xOut = q.flitX q.txN o ∧ (t.port p).reqO = !q.reqO) ∧
        (q.w128 = true → (t.port p).dOut = o >>> 128 ∧ (t.port p).kOut = flitCrc true true o >>> 4 ∧
          (t.port p).xOut = q.flitX q.txN o >>> 4))) ∧
    (q.ackDue = false ∧ q.nakDue = false ∨ q.refr ≠ [] ∨ q.nextVc ≠ none → exec (.ackseqReport pp) s = .next s) ∧
    (q.unacked = [] → exec (.frameReplayTimeout pp) s = .next s) ∧
    (q.unacked ≠ [] → q.lastRep ≠ some q.ackBase → q.rate + 1 ≤ q.lretry.toNat / 2 ^ 16 →
      runs (.frameReplayTimeout pp) s (fun t => still t ∧ (t.port p).st = 2 ∧ (t.port p).refr = q.unacked ∧
        (t.port p).unacked = q.unacked ∧ (t.port p).replay = satInc q.replay ∧ (t.port p).rep = some (q.ackBase, 0)))

/-- TRAIN starts training at a DOWN or FAILED port, a partner's TRAIN or PRESENCE_BEAT at an UP port too, but no stream port trains where PKGCLASS is 0b10 or 0b11 (cause 13); otherwise TRAIN changes nothing. A phase ends when both receivers have finished it. In training: PRESENCE_BEAT counts consecutive presence beats and the 16th finishes the phase here; ROLE_BEAT decides the leader: of two that lead both withdraw by 8 beats, after which the lower identity leads; equal ones fail with cause 5; the 8th identical CAPABILITY_BEAT finishes CAP, or fails with the cause of Table 14-8; SWEEP_BEAT counts a beat at its code, and under an alert begins a later sweep again; VERIFY_BEAT counts a good beat, 4,096 of them finish this end, and a bad one fails with cause 8 or, after saved settings, falls back to SWEEP; STATUS_BEAT takes the partner's report and the spares of the outbound bundle; DONE_BEAT makes the port UP, once 4 DONE beats have left, with its sequence numbers at 0; TRAINING_TIMEOUT past the phase's limit fails with cause 9, while an alert holds SWEEP. RETIRE retires a port with cause 12. MIRROR_PERIOD narrows the window of an UP port in spare mode. None changes memory. Model choice: log 58. Every clause on a command concludes that exec answers a next state. -/
def Obligations.LinksTrainAndRetire : Prop :=
  ∀ (s : State) (p : Nat), p < 172 →
    let q := s.port p
    let goes := fun (i : Instr) (st ph : Nat) => runs i s (fun t => sameMemory s t ∧ sameRegisters s t ∧
      (t.port p).st = st ∧ (t.port p).ph = ph)
    let fails := fun (i : Instr) (cause : Nat) => runs i s (fun t => sameMemory s t ∧ sameRegisters s t ∧
      (t.port p).st = 3 ∧ (t.port p).cause = cause)
    let noTrain := p < 160 ∧ 2 ≤ s.aon.pkgclass.toNat
    (∀ own, (q.st ≠ 1 → q.st ≠ 4 → ¬ (own = true ∧ q.st = 2) →
        (¬ noTrain → goes (.train p own) 1 0 ∧
          runs (.train p own) s (fun t => (t.port p).lead = own ∧ (t.port p).cause = 0)) ∧
        (noTrain → fails (.train p own) 13)) ∧
      (q.st = 1 ∨ q.st = 4 ∨ (own = true ∧ q.st = 2) → exec (.train p own) s = .next s)) ∧
    (∀ d, (q.st ≠ 1 → q.st ≠ 4 → ¬ noTrain → isPresence d = true → goes (.presenceBeat p d) 1 0 ∧
        runs (.presenceBeat p d) s (fun t => (t.port p).lead = false ∧ (t.port p).cnt = 1)) ∧
      (q.st = 4 ∨ (q.st ≠ 1 ∧ isPresence d = false) → exec (.presenceBeat p d) s = .next s)) ∧
    (q.st = 1 → q.ph = 0 → (q.mine && q.theirs) = false → ∀ d,
      (isPresence d = false → runs (.presenceBeat p d) s (fun t => (t.port p).cnt = 0 ∧ (t.port p).ph = 0)) ∧
      (isPresence d = true → q.cnt + 1 < 16 → runs (.presenceBeat p d) s (fun t => (t.port p).cnt = q.cnt + 1 ∧ (t.port p).ph = 0)) ∧
      (isPresence d = true → 16 ≤ q.cnt + 1 → (q.theirs = true → goes (.presenceBeat p d) 1 1) ∧
        (q.theirs = false → goes (.presenceBeat p d) 1 0 ∧ runs (.presenceBeat p d) s (fun t => (t.port p).mine = true)))) ∧
    (q.st = 1 → q.ph = 1 → q.mine = false → q.wd = 0 → ∀ (hi : BitVec 9) (mid : BitVec 7) (lo : BitVec 240),
      let d : BitVec 256 := hi ++ mid ++ lo
      bits d.toNat 248 8 = 0xA1 →
      let lead := d.getLsbD 247
      let wd := d.getLsbD 246
      let id : BitVec 16 := d.extractLsb' 224 16
      (q.lead = true → (lead || wd) = true → q.peerId = none → id.toNat = s.linkId → fails (.roleBeat p hi mid lo) 5) ∧
      (q.lead = true → (lead || wd) = true → q.peerId = none → id.toNat ≠ s.linkId → goes (.roleBeat p hi mid lo) 1 1 ∧
        runs (.roleBeat p hi mid lo) s (fun t => (t.port p).lead = false ∧ (t.port p).wd = 8 ∧ (t.port p).peerId = some id)) ∧
      (q.lead = true → (lead || wd) = false → goes (.roleBeat p hi mid lo) 1 2 ∧ runs (.roleBeat p hi mid lo) s (fun t => (t.port p).leader = true)) ∧
      (q.lead = false → lead = true → wd = false → runs (.roleBeat p hi mid lo) s (fun t => (t.port p).leader = false ∧
        (t.port p).ph = (if q.theirs then 2 else 1) ∧ (q.theirs = false → (t.port p).mine = true))) ∧
      (q.lead = false → (lead && !wd) = false → goes (.roleBeat p hi mid lo) 1 1 ∧ runs (.roleBeat p hi mid lo) s (fun t =>
        (t.port p).mine = false ∧ (t.port p).lead = false))) ∧
    (q.statusNext = false → q.wd = 1 → (q.trainSent s.linkId).lead = q.peerId.any (fun i => decide (s.linkId < i.toNat))) ∧
    (q.st = 1 → q.ph = 2 → q.mine = false → ∀ d, capF d 248 8 = 0xA2 → q.peer = d →
      (q.cnt + 1 < 8 → runs (.capabilityBeat p d) s (fun t => (t.port p).cnt = q.cnt + 1 ∧ (t.port p).ph = 2)) ∧
      (8 ≤ q.cnt + 1 → ∀ c, negotiate p q.chk d = .inl c → fails (.capabilityBeat p d) c) ∧
      (8 ≤ q.cnt + 1 → q.record = none → q.saved = false → ∀ sub, negotiate p q.chk d = .inr sub →
        goes (.capabilityBeat p d) 1 (if q.theirs then 3 else 2) ∧
        runs (.capabilityBeat p d) s (fun t => (t.port p).sub = sub ∧ (t.port p).win = sub.getD 4 0))) ∧
    (q.st = 1 → q.ph = 3 → q.mine = false → s.aon.alertN = false → q.swRuns ≠ 0 → ∀ code bad, code < 64 →
      runs (.sweepBeat p code bad) s (fun t => (t.port p).swCnt = [] ∧ (t.port p).swCur = [] ∧ (t.port p).swBad = q.swBad ∧
        (t.port p).swRuns = q.swRuns ∧ (t.port p).ph = 3 ∧ sameMemory s t)) ∧
    (q.st = 1 → q.ph = 3 → q.mine = false → s.aon.alertN = true ∨ q.swRuns = 0 → ∀ code bad, code < 64 →
      let cnt := lset q.swCnt code (lget 0 q.swCnt code + 1)
      let full := (List.range 64).all (fun c => 4096 ≤ lget 0 cnt c)
      (full = false → runs (.sweepBeat p code bad) s (fun t => (t.port p).swCnt = cnt ∧ (t.port p).swRuns = q.swRuns ∧
        (t.port p).ph = 3 ∧ sameMemory s t)) ∧
      (full = true → p < 170 → q.swRuns + 1 ≠ 3 → runs (.sweepBeat p code bad) s (fun t => (t.port p).swCnt = [] ∧
        (t.port p).swRuns = q.swRuns + 1 ∧ (t.port p).ph = 3 ∧ sameMemory s t))) ∧
    (q.st = 1 → q.ph = 4 → q.mine = false →
      (q.cnt + 1 ≠ 4096 → runs (.verifyBeat p true) s (fun t => (t.port p).cnt = q.cnt + 1 ∧ (t.port p).mine = false)) ∧
      (q.cnt + 1 = 4096 → q.theirs = false → runs (.verifyBeat p true) s (fun t => (t.port p).mine = true ∧ (t.port p).ph = 4)) ∧
      (q.cnt + 1 = 4096 → q.theirs = true → goes (.verifyBeat p true) 1 5) ∧
      (q.saved = false → fails (.verifyBeat p false) 8) ∧
      (q.saved = true → goes (.verifyBeat p false) 1 3)) ∧
    (q.st = 1 → ∀ spares, (q.ph = 3 ∨ q.ph = 4) → (q.mine && q.theirs) = false →
      (q.mine = true → goes (.statusBeat p q.ph (some spares)) 1 (q.ph + 1)) ∧
      (q.mine = false → runs (.statusBeat p q.ph (some spares)) s (fun t => (t.port p).theirs = true ∧
        (t.port p).ph = q.ph)) ∧
      (q.ph = 3 → runs (.statusBeat p q.ph (some spares)) s (fun t =>
        ∀ g < 8, lget 0 (t.port p).sparesO g = spares.getD g 0)) ∧
      goes (.statusBeat p q.ph none) 1 q.ph ∧ runs (.statusBeat p q.ph none) s (fun t =>
        (t.port p).theirs = q.theirs ∧ (t.port p).mine = q.mine)) ∧
    (q.st = 1 → q.ph = 5 → q.tsent < 4 → goes (.doneBeat p) 1 5 ∧ runs (.doneBeat p) s (fun t => (t.port p).theirs = true)) ∧
    (q.st = 1 → q.ph = 5 → 4 ≤ q.tsent → goes (.doneBeat p) 2 5 ∧ runs (.doneBeat p) s (fun t =>
      (t.port p).seq = BitVec.ofNat 12 q.unacked.length ∧ (t.port p).exp = 0 ∧ (t.port p).consec = 0 ∧ (t.port p).rate = 0 ∧
      (160 ≤ p → ∀ v < 4, lget 0 (t.port p).cred v = q.sub.getD (5 + v) 0))) ∧
    (q.st = 1 →
      (q.phTick + phaseLimit q.ph ≤ s.ticks → (q.ph ≠ 3 ∨ s.aon.alertN = true) → fails (.trainingTimeout p) 9) ∧
      (s.ticks < q.phTick + phaseLimit q.ph ∨ (q.ph = 3 ∧ s.aon.alertN = false) → exec (.trainingTimeout p) s = .next s)) ∧
    (q.st ≠ 4 → runs (.retire p) s (fun t => sameMemory s t ∧ (t.port p).st = 4 ∧ (t.port p).cause = 12)) ∧
    (q.st = 4 → exec (.retire p) s = .next s) ∧
    (∀ lo hi, q.st = 2 → (160 ≤ p ∨ q.chk = false) → runs (.mirrorPeriod p lo hi) s (fun t => sameMemory s t ∧
      (t.port p).mirSeen = q.mirSeen + 1 ∧
      (q.used (q.mirSeen % 8) = false → (t.port p).mirLo = max q.mirLo lo ∧ (t.port p).mirHi = min q.mirHi hi) ∧
      (q.used (q.mirSeen % 8) = true → (t.port p).mirLo = q.mirLo ∧ (t.port p).mirHi = q.mirHi)))

/-- PACKET_INJECTION takes the waiting packet of highest effective level, the first in round-robin among equals: inside the partition rectangle it enters the local buffer of its virtual channel, outside it is refused to its requester and logged. ROUTER_GRANT moves the winning head packet through its output: to ejection, or into the neighbour's buffer of its virtual channel, using credits and freeing its input; across the seam a header with a parity mismatch discards it, which is logged, a data mismatch poisons it, and every group counts in PARERR. A hop moves a packet towards its column first, then towards its row. PRIORITY_AGEING raises a head's effective level. CREDIT_RETURN returns one freed flit. PACKET_EJECTION hands the oldest packet to its unit; a request waits while one waits unadmitted or its stream port has every tag in use, and a fenced block answers FENCED. NOCPRI_WRITE sets the levels. SEAM_IDLE_TEST replaces, at the next idle step, a wire that mismatched in three in a row, and fails the direction where the group's spare is used up. Model choice: log 55. Every clause on a command concludes that exec answers a next state. -/
def Obligations.MeshMovesPacketsAlongTheirRoute : Prop :=
  (∀ (last n : Nat) (cs : List Cand) w, pick last n cs = some w → w ∈ cs ∧ ∀ c ∈ cs, c.2.eff ≤ w.2.eff) ∧
  (∀ b d : Nat, b < nBlocks → d < nBlocks → b ≠ d → ∃ e, neighbour b (route b d) = some e ∧ e < nBlocks ∧
    (bxOf b ≠ bxOf d → byOf e = byOf b) ∧ (bxOf b = bxOf d → bxOf e = bxOf b) ∧
    ((bxOf e : Int) - bxOf d).natAbs + ((byOf e : Int) - byOf d).natAbs + 1 =
      ((bxOf b : Int) - bxOf d).natAbs + ((byOf b : Int) - byOf d).natAbs) ∧
  ∀ (s : State) (b : Nat), s.staged b →
    let k := s.blk b
    let still := fun (t : State) => sameMemory s t ∧ sameRegisters s t
    (∀ key p, pick k.niLast 262 ((niHeads [] k.niq).filter (fun c => !inRect k.partrect c.2.dst || k.localRoom c.2)) = some (key, p) →
      let u := (s.setBlk b { k with niq := k.niq.erase p, niLast := key }).injected b p
      (inRect k.partrect p.dst = true → exec (.packetInjection b) s = .next (u.modBlk b (fun q => { q with
        bufs := lset q.bufs (24 + p.vc) (lget [] q.bufs (24 + p.vc) ++ [{ p with aged := 0 }]) }))) ∧
      (inRect k.partrect p.dst = false → runs (.packetInjection b) s (fun t => still t ∧ (t.blk b).bufs = k.bufs ∧
        t.logSlots.any (fun l => l.kind == 2 && l.id == b) = true))) ∧
    (∀ o key p, o < 5 → ∀ err, pick (lget 29 k.outLast o) 30 (s.heads b o) = some (key, p) →
      (o = 4 → runs (.routerGrant b o err) s (fun t => still t ∧
        lget [] (t.blk b).ejq p.vc = lget [] k.ejq p.vc ++ [{ p with aged := 0 }])) ∧
      (∀ d, neighbour b o = some d →
        let dk := opposite o * 6 + p.vc
        (isSeam b d = false → runs (.routerGrant b o err) s (fun t => still t ∧
          lget [] (t.blk d).bufs dk = lget [] (s.blk d).bufs dk ++ [{ p with aged := 0 }] ∧
          lget 0 (t.blk b).credits (o * 6 + p.vc) = lget 0 k.credits (o * 6 + p.vc) + (p.nfl + 1))) ∧
        (isSeam b d = true → runs (.routerGrant b o err) s (fun t => (t.blk d).seamParerr =
          BitVec.ofNat 15 (min 0x7FFF ((s.blk d).seamParerr.toNat + popcount (seamErr (s.blk d) p err))))) ∧
        (isSeam b d = true → seamErr (s.blk d) p err % 2 ^ 16 ≠ 0 → runs (.routerGrant b o err) s (fun t => still t ∧
          (t.blk d).bufs = (s.blk d).bufs ∧ t.logSlots.any (fun l => l.kind == 2 && l.id == d) = true)) ∧
        (isSeam b d = true → seamErr (s.blk d) p err % 2 ^ 16 = 0 → runs (.routerGrant b o err) s (fun t => still t ∧
          lget [] (t.blk d).bufs dk = lget [] (s.blk d).bufs dk ++
            [{ p with aged := 0, poison := p.poison || seamErr (s.blk d) p err != 0 }])))) ∧
    (∀ pt n p ps, pt < 5 → lget [] k.bufs (pt * 6 + n % 6) = p :: ps → exec (.priorityAgeing b pt n) s = .next (s.setBlk b { k with
      bufs := lset k.bufs (pt * 6 + n % 6) ({ p with aged := p.aged + 1 } :: ps) })) ∧
    (∀ n p, k.niq.find? (fun p => p.niKey = n) = some p → exec (.priorityAgeing b 5 n) s = .next (s.setBlk b { k with
      niq := k.niq.replace p { p with aged := p.aged + 1 } })) ∧
    (∀ o vc d, neighbour b o = some d → lget 0 (s.blk d).owed (opposite o * 6 + vc) ≠ 0 →
      exec (.creditReturn b o vc) s = .next ((s.modBlk d (fun k => { k with
        owed := cset 0 k.owed (opposite o * 6 + vc) (lget 0 k.owed (opposite o * 6 + vc) - 1) })).modBlk b
          (fun k => { k with credits := cset 0 k.credits (o * 6 + vc) (lget 0 k.credits (o * 6 + vc) - 1) }))) ∧
    (∀ vc p rest, lget [] k.ejq vc = p :: rest →
      let u := s.setBlk b { k with ejq := cset [] k.ejq vc rest }
      let full := ∃ port c, p.pay = .portCmd port c ∧ s.portFull b port = true
      (p.cls = 0 → k.remoteIn ≠ [] ∨ full → exec (.packetEjection b vc) s = .next s) ∧
      (p.cls ≠ 0 ∨ (k.remoteIn = [] ∧ ¬ full) →
        (∀ port c, p.pay = .portCmd port c → (k.fence = true ∨ k.rstFence = true →
            exec (.packetEjection b vc) s = .next (u.portReply port c (1, 0) [])) ∧
          (k.fence = false → k.rstFence = false → exec (.packetEjection b vc) s = .next (s.setBlk b { k with
            ejq := cset [] k.ejq vc rest, portIn := k.portIn ++ [(port, { c with poison := c.poison || p.poison })] }))) ∧
        (∀ a, p.pay = .acc a → p.poison = false → k.fence = true ∨ k.rstFence = true →
          exec (.packetEjection b vc) s = .next (u.reply b a 1 [])) ∧
        (∀ a, p.pay = .acc a → p.poison = false → a.space ≤ 1 → k.fence = false → k.rstFence = false →
          exec (.packetEjection b vc) s = .next (s.setBlk b { k with
            ejq := cset [] k.ejq vc rest, remoteIn := k.remoteIn ++ [a] })) ∧
        (∀ a, p.pay = .ans a → exec (.packetEjection b vc) s =
          .next (u.deliver b { a with status := if p.poison && a.status == 0 then 4 else a.status })))) ∧
    (∀ a rest, k.ctlIn = a :: rest → a.writes 0x104 = true → runs (.nocpriWrite b) s (fun t => still t ∧
      (t.blk b).nocpri = BitVec.ofNat 32 (a.val % 256) ∧ (t.blk b).ctlIn = rest)) ∧
    (seamRow b = true → k.seamFailed = false →
      (runs (.seamIdleTest b 0 false) s (fun t => still t ∧ (t.blk b).seamRun = [] ∧ (t.blk b).seamCtl = 0 ∧
        (t.blk b).seamNext = [] ∧ (t.blk b).seamFailed = false ∧ ∀ e ∈ k.seamNext, e.1 < 16 → (t.blk b).seamRepl.getLsbD e.1 = true)) ∧
      (∀ i, i < 528 → k.seamNext = [] → lget 0 k.seamRun i = 2 → (lget 0 k.seamMap (i / 33)).toNat ≠ 128 + i % 33 →
        (k.seamRepl.getLsbD (i / 33) = false → runs (.seamIdleTest b (BitVec.ofNat 528 (2 ^ i)) false) s (fun t => still t ∧
          (t.blk b).seamNext = [(i / 33, i % 33)] ∧ (t.blk b).seamFailed = false)) ∧
        (k.seamRepl.getLsbD (i / 33) = true → runs (.seamIdleTest b (BitVec.ofNat 528 (2 ^ i)) false) s (fun t =>
          (t.blk b).seamFailed = true))))

/-- A slice runs: its island exists, is not held by a brown-out, and the engine is not fenced (R378, R444, R481). -/
def nteRuns (s : State) (i : Nat) : Prop := i < 10 ∧ (s.isl i).brown = false ∧ s.nteUp i = true

/-- On a running slice, of a queue pair in RTS that no search holds, once the waiting answers are taken up: SEND, SEND_IMM, WRITE, WRITE_IMM and READ start the next posted work request of their OPCODE with its own PSNs, a malformed one failing the QP with code 1; with none posted they wait, and a missing WQE is read first. NTE_PACKET_SEND sends the ready packet that is next in turn, on virtual channel 2, once the rates of its queue pair and of the slice allow it. INCOMING_ACK of a PSN in flight acknowledges everything up to it and restores RETRY. READ_RESPONSE takes the next response of the oldest READ and discards any other. INCOMING_NAK resends from its PSN on a Sequence Error, waits on an RNR NAK while the count lasts (code 6 after), and fails the QP with 9, 7 or 8 otherwise. LOCAL_ACK_TIMEOUT resends while retries remain and fails with code 5 after; RNR_TIMER ends the wait. INCOMING_CNP, TALPHA and TINC change rate and alpha as R379 states. WORK_REQUEST_COMPLETE of an acknowledged request without SIGNAL advances CONS, with it sends the ADD first. SQIDX_PROD_WRITE moves PROD within the ring only forward. None changes memory. Model choice: log 30, 31, 39, 62. Every clause on a command concludes that exec answers a next state. -/
def Obligations.NteRequesterSendsRetriesAndCompletes : Prop :=
  ∀ (s : State) (i q : Nat), nteRuns s i →
    let u := s.nteTake i
    let k := u.qp i q
    let n := u.nte i
    let does := fun (x : Instr) (f : State → Prop) => runs x s (fun t => sameMemory s t ∧ sameRegisters u t ∧ f t)
    (k.stat = 1 → u.suspHeld true (ppBlk i) q = false →
      (∀ x op, (x, op) ∈ [(Instr.send i q, 0), (.sendImm i q, 1), (.write i q, 2), (.writeImm i q, 3), (.read i q, 4)] →
        (k.sqNext = k.sqprod → exec x s = .next u) ∧
        (k.sqNext ≠ k.sqprod → u.suspected true (ppBlk i) q = false →
          (k.wqe = none → k.wqeRd = false → exec x s =
            .next ((u.setQp i q { k with wqeRd := true }).nteRead i q .wqe k.nextPsn 128 k.sqAddr.1 k.sqAddr.2 0 64)) ∧
          (∀ d, k.wqe = some d → wqeOk d = false → does x (fun t => (t.qp i q).stat = 2 ∧ (t.qp i q).code = 1 ∧
            (t.qp i q).fidx = k.sqNext)) ∧
          (∀ d b o, k.wqe = some d → wqeOk d = true → fld d 28 1 = op → u.nteBuf i (fld d 0 8) (fld d 16 4) = some (b, o) →
            (bit (fld d 29 1) 1 = false ∨ ∀ w ∈ k.works, w.op ≠ 4) → does x (fun t => let m := pktsOf (fld d 16 4) k.set.mtu
              (t.qp i q).sqNext = k.sqNext + 1 ∧ (t.qp i q).nextPsn = psnAdd k.nextPsn m ∧ (t.qp i q).wqe = none ∧
              ∃ w, (t.qp i q).works = k.works ++ [w] ∧ w.op = op ∧ w.blk = b ∧ w.off = o ∧ w.len = fld d 16 4 ∧
                w.raddr = fld d 8 8 ∧ w.rkey = fld d 20 4 ∧ w.psn = k.nextPsn ∧ w.npkt = m)))) ∧
      (s.ticks = u.ticks) ∧
      (∀ tm, k.timer = some tm → k.set.timeout ≠ 0 → tm + (4096 * 2 ^ k.set.timeout + 9) / 10 ≤ u.ticks →
        (k.retryLeft ≠ 0 → does (.localAckTimeout i q) (fun t => (t.qp i q).retryLeft = k.retryLeft - 1 ∧
          (t.qp i q).spsn = k.una ∧ (t.qp i q).timer = some u.ticks ∧ (t.qp i q).works = k.works)) ∧
        (k.retryLeft = 0 → does (.localAckTimeout i q) (fun t => (t.qp i q).stat = 2 ∧ (t.qp i q).code = 5))) ∧
      (∀ tm, k.rnrAt = some tm → tm ≤ u.ticks → exec (.rnrTimer i q) s =
        .next (u.setQp i q { k with rnrAt := none, spsn := k.una })) ∧
      (u.ticks < k.taAt + 5500 → exec (.talpha i q) s = .next u) ∧
      (k.taAt + 5500 ≤ u.ticks → does (.talpha i q) (fun t => (t.qp i q).taAt = u.ticks ∧ (t.qp i q).rc = k.rc ∧
        (k.cnpAt = none → (t.qp i q).alpha = k.alpha - k.alpha / 256) ∧
        (∀ c, k.cnpAt = some c → k.taAt ≤ c → (t.qp i q).alpha = k.alpha))) ∧
      (u.ticks < k.tiAt + 5500 → k.bytesSince < bInc → exec (.tinc i q) s = .next u) ∧
      ((k.tiAt + 5500 ≤ u.ticks ∨ bInc ≤ k.bytesSince) → does (.tinc i q) (fun t =>
        let rt := if 5 < k.stage + 1 then min (k.rt + rAi) (u.rMax i) else k.rt
        (t.qp i q).stage = k.stage + 1 ∧ (t.qp i q).rt = rt ∧ (t.qp i q).rc = (k.rc + rt) / 2)) ∧
      (∀ w ws, k.works = w :: ws → w.adding = false → n.workDone q k w = true →
        (w.signal = false → exec (.workRequestComplete i q) s = .next (u.setQp i q { k with works := ws, sqcons := k.sqcons + 1 })) ∧
        (w.signal = true → u.ownObj (ppBlk i) w.syncid = true → does (.workRequestComplete i q) (fun t =>
          (t.qp i q).works = { w with adding := true } :: ws ∧ (t.qp i q).sqcons = k.sqcons ∧
          ∃ a, a.use = .sqAdd ∧ a.acc.data = toBytes 4 w.inc ∧ a.acc.space = 2 ∧ a.dst = w.syncid / 16 ∧
            (256 ≤ (u.nteUsed i).length → (t.nte i).accs = n.accs ++ [a] ∧ a.wire = none ∧
              (t.blk (ppBlk i)).niq = (u.blk (ppBlk i)).niq) ∧
            ((u.nteUsed i).length < 256 → (∀ x ∈ n.accs, x.wire ≠ none) → (t.nte i).accs = n.accs ++ [a] ∧
              ∃ pk tg, a.wire = some tg ∧ tg ∉ u.nteUsed i ∧ (t.blk (ppBlk i)).niq = (u.blk (ppBlk i)).niq ++ [pk] ∧
                pk.dst = w.syncid / 16 ∧ pk.pay = .acc { a.acc with tag := tg }))))) ∧
    (u.ticks * 2 ^ 20 < n.paceAt → exec (.ntePacketSend i) s = .next u) ∧
    (∀ j x, u.ppUp i = true → n.paceAt ≤ u.ticks * 2 ^ 20 →
      (n.turns u.ticks (u.suspHeld true (ppBlk i))).find? (fun e => pktReady (lget ({} : Qp) n.qps e.1) e.2) = some (j, x) →
      let len := (payload (u.qp i j) x).2.2
      let sent := (u.qp i j).sent x len u.ticks
      does (.ntePacketSend i) (fun t => (t.nte i).last = j ∧
        (isResp x = false → t.qp i j = { sent with paceAt := paceAfter (u.qp i j).paceAt u.ticks (u.qp i j).rc len }) ∧
        (isResp x = true → t.qp i j = sent) ∧ (t.nte i).paceAt = paceAfter n.paceAt u.ticks (u.rMax i) len ∧
        ∃ f, lget [] (t.port (ppPort i)).vcq 2 = lget [] (u.port (ppPort i)).vcq 2 ++ [f])) ∧
    (∀ p rest, n.rxq = p :: rest → p.qp = q → k.stat = 1 →
      let popped := fun (t : State) => (t.nte i).rxq = rest
      (p.op = 0x11 → p.syn / 32 = 0 → k.openRead = none → psnDist p.psn k.una < 2 ^ 23 → psnDist (psnAdd p.psn 1) k.una ≠ 0 →
        psnDist (psnAdd p.psn 1) k.una ≤ psnDist k.nextPsn k.una → does (.incomingAck i) (fun t => popped t ∧
          (t.qp i q).una = psnAdd p.psn 1 ∧ (t.qp i q).retryLeft = k.set.retry ∧ (t.qp i q).works = k.works)) ∧
      (0xD ≤ p.op → p.op ≤ 0x10 →
        (∀ w, k.openRead = some w → psnAdd w.psn w.got = p.psn → does (.readResponse i) (fun t => popped t ∧
          (t.qp i q).works = k.works.replace w { w with got := w.got + 1 })) ∧
        (k.openRead = none → does (.readResponse i) (fun t => popped t ∧ t.qp i q = k))) ∧
      (p.op = 0x11 → p.syn / 32 ≠ 0 → p.psn = k.una → psnDist k.una k.una < psnDist k.nextPsn k.una →
        (p.syn = synSeq → does (.incomingNak i) (fun t => popped t ∧ (t.qp i q).stat = 1 ∧ (t.qp i q).spsn = k.una)) ∧
        (p.syn / 32 = 1 → k.rnrLeft ≠ 0 → does (.incomingNak i) (fun t => popped t ∧ (t.qp i q).stat = 1 ∧
          (t.qp i q).rnrAt = some (u.ticks + rnrTicks p.syn) ∧
          (t.qp i q).rnrLeft = if k.rnrLeft = 7 then 7 else k.rnrLeft - 1)) ∧
        (p.syn / 32 = 1 → k.rnrLeft = 0 → does (.incomingNak i) (fun t => popped t ∧ (t.qp i q).stat = 2 ∧ (t.qp i q).code = 6)) ∧
        (∀ c, (p.syn, c) ∈ [(synInv, 9#8), (synAcc, 7#8), (synOp, 8#8)] → does (.incomingNak i) (fun t => popped t ∧
          (t.qp i q).stat = 2 ∧ (t.qp i q).code = c))) ∧
      (p.op = 0x81 → does (.incomingCnp i) (fun t => popped t ∧ (t.qp i q).rt = k.rc ∧
        (t.qp i q).rc = max (k.rc - k.rc * k.alpha / 2 ^ 33) rMin ∧ (t.qp i q).alpha = k.alpha - k.alpha / 256 + 2 ^ 24 ∧
        (t.qp i q).stage = 0))) ∧
    (∀ a rest, (u.blk (ppBlk i)).ctlIn = a :: rest → a.kind = .wr → isQpOff a.off 8 = true → qpOf a.off = q →
      let v := BitVec.ofNat 16 a.val
      (q < n.qalloc → prodOk v k.sqprod k.sqcons k.sqSlots = true → does (.sqidxProdWrite i) (fun t =>
        (t.qp i q).sqprod = v ∧ (t.blk (ppBlk i)).ctlIn = rest)) ∧
      (n.qalloc ≤ q ∨ prodOk v k.sqprod k.sqcons k.sqSlots = false → does (.sqidxProdWrite i) (fun t =>
        t.qp i q = k ∧ (t.blk (ppBlk i)).ctlIn = rest)))

/-- NTE_FRAME_RECEIVED takes the oldest frame of virtual channel 2: one that the slice does not implement is dropped and counted, one for a queue pair outside RTS dropped, one of the subset for a queue pair in RTS waits for its row. INCOMING_SEND, INCOMING_WRITE and INCOMING_READ of the oldest packet: out of sequence it is discarded with one NAK Sequence Error per expected PSN; an in-sequence WRITE or READ that no VALID region with the permission, the RKEY and the range admits is answered NAK Remote Access Error and fails the queue pair with code 10 (hex A); an admitted one advances the expected PSN; a SEND with no posted receive buffer is answered RNR NAK and leaves the expected PSN. RESPONDER_COMPLETION writes the record of an ended message, then, without a sync object, advances CONS. RQIDX_PROD_WRITE moves PROD within the ring only forward. MR_VALID_SET makes a region VALID only inside one block store of the partition, with a permission; MR_VALID_CLEAR ends it and is answered once its placements are. None changes memory, which the placements reach as accesses through the mesh. Model choice: log 30, 62. Every clause on a command concludes that exec answers a next state. -/
def Obligations.NteResponderPlacesAndAnswers : Prop :=
  ∀ (s : State) (i q : Nat), nteRuns s i →
    let u := s.nteTake i
    let k := u.qp i q
    let n := u.nte i
    let does := fun (x : Instr) (f : State → Prop) => runs x s (fun t => sameMemory s t ∧ sameRegisters u t ∧ f t)
    (∀ m ms, lget [] (s.port (ppPort i)).inbox 2 = m :: ms →
      let v := (s.setPort (ppPort i) { s.port (ppPort i) with inbox := cset [] (s.port (ppPort i)).inbox 2 ms }).nteTake i
      (rxFrame (v.nte i) m = .count → exec (.nteFrameReceived i) s = .next (v.modNte i (fun n => { n with drop := satInc n.drop }))) ∧
      (rxFrame (v.nte i) m = .drop → exec (.nteFrameReceived i) s = .next v) ∧
      (∀ p, rxFrame (v.nte i) m = .pkt p →
        ((v.qp i p.qp).stat ≠ 1 → exec (.nteFrameReceived i) s = .next v) ∧
        ((v.qp i p.qp).stat = 1 → rcOp p.op = true → p.ce = false → exec (.nteFrameReceived i) s =
          .next (v.modNte i (fun n => { n with rxq := n.rxq ++ [p] }))))) ∧
    (∀ p rest, n.rxq = p :: rest → p.qp = q → k.stat = 1 →
      let popped := fun (t : State) => (t.nte i).rxq = rest
      let fails := fun (x : Instr) (syn : Nat) (code : BitVec 8) => does x (fun t => popped t ∧ (t.qp i q).stat = 2 ∧
        (t.qp i q).code = code ∧ (t.qp i q).out = k.out.filter Resp.isNak ++ [.nak p.psn syn] ∧ (t.qp i q).epsn = k.epsn)
      (∀ x, (x = Instr.incomingSend i ∧ p.op ≤ 5) ∨ (x = .incomingWrite i ∧ 6 ≤ p.op ∧ p.op ≤ 0xB) ∨ (x = .incomingRead i ∧ p.op = 0xC) →
        k.seqTest p.psn = 2 → does x (fun t => popped t ∧ (t.qp i q).epsn = k.epsn ∧ (t.qp i q).nakd = true ∧
          (t.qp i q).out = if k.nakd then k.out else k.out ++ [.nak k.epsn synSeq])) ∧
      (p.op = 0 ∨ p.op = 4 ∨ p.op = 5 → k.seqTest p.psn = 0 → k.inSend = false → k.inWrite = none → k.rqe = none →
        k.rqeRd = false →
        (k.rqNext = k.rqprod → does (.incomingSend i) (fun t => popped t ∧ (t.qp i q).epsn = k.epsn ∧
          (t.qp i q).out = k.out ++ [.nak k.epsn (synRnr k.set.rnrt)])) ∧
        (k.rqNext ≠ k.rqprod → does (.incomingSend i) (fun t => (t.qp i q).rqeRd = true ∧ (t.nte i).rxq = p :: rest))) ∧
      (p.op = 1 ∨ p.op = 2 → k.seqTest p.psn = 0 → k.inSend = true → k.inWrite = none →
        ∀ r rs, k.recvs = rs ++ [r] → r.bytes + p.data.length ≤ r.len → does (.incomingSend i) (fun t => popped t ∧
          (t.qp i q).epsn = psnAdd k.epsn 1 ∧ (t.qp i q).inSend = (p.op == 1) ∧ ∃ r', (t.qp i q).recvs = rs ++ [r'] ∧
            r'.bytes = r.bytes + p.data.length ∧ r'.ended = (p.op == 2))) ∧
      (p.op = 6 ∨ p.op = 0xA → k.seqTest p.psn = 0 → k.inSend = false → k.inWrite = none → p.len ≤ 2 ^ 21 →
        (n.region p true = none → fails (.incomingWrite i) synAcc 0xA) ∧
        (∀ w, n.region p true = some w → p.data.length ≤ w.left → (p.op = 0xA → w.left = p.data.length) →
          does (.incomingWrite i) (fun t => popped t ∧ (t.qp i q).epsn = psnAdd k.epsn 1 ∧ (t.qp i q).stat = 1))) ∧
      (p.op = 0xC → k.seqTest p.psn = 0 → k.reading < k.set.rddepth → p.len ≤ 2 ^ 21 → k.inSend = false → k.inWrite = none →
        (n.region p false = none → fails (.incomingRead i) synAcc 0xA) ∧
        (∀ w, n.region p false = some w → does (.incomingRead i) (fun t => popped t ∧
          (t.qp i q).epsn = psnAdd k.epsn (pktsOf p.len k.set.mtu) ∧
          (t.qp i q).out = k.out ++ [.read p.psn w.mr w.blk w.off p.len 0])))) ∧
    (∀ p wr w, n.region p wr = some w → let r := lget ({} : Region) n.mrs (p.rkey % 128)
      r.ctl.getLsbD 31 = true ∧ r.ctl.toNat % 2 ^ 24 = p.rkey / 256 ∧ r.va.toNat ≤ p.va ∧
      p.va - r.va.toNat + p.len ≤ r.len.toNat ∧ (wr = true → r.ctl.getLsbD 29 = true) ∧ (wr = false → r.ctl.getLsbD 30 = true) ∧
      w.blk = bits r.loc.toNat 21 9 ∧ w.off = r.loc.toNat % 2 ^ 21 + (p.va - r.va.toNat)) ∧
    (k.stat = 1 → u.suspHeld true (ppBlk i) q = false → ∀ r rs, k.recvs = r :: rs → r.ended = true →
      (r.stage = 0 → does (.responderCompletion i q) (fun t => (t.qp i q).recvs = { r with stage := 1 } :: rs ∧
        (t.qp i q).rqcons = k.rqcons)) ∧
      (r.stage = 1 → n.placed q r.psn = true → n.accs.any (fun a => a.qp == q && a.use == .record) = false → bit r.sync 31 = false →
        does (.responderCompletion i q) (fun t => (t.qp i q).recvs = rs ∧ (t.qp i q).rqcons = k.rqcons + 1))) ∧
    (∀ a rest, (u.blk (ppBlk i)).ctlIn = a :: rest → a.kind = .wr →
      (isQpOff a.off 12 = true → qpOf a.off = q →
        let v := BitVec.ofNat 16 a.val
        (q < n.qalloc → prodOk v k.rqprod k.rqcons k.rqSlots = true → does (.rqidxProdWrite i) (fun t =>
          (t.qp i q).rqprod = v ∧ (t.blk (ppBlk i)).ctlIn = rest)) ∧
        (n.qalloc ≤ q ∨ prodOk v k.rqprod k.rqcons k.rqSlots = false → does (.rqidxProdWrite i) (fun t =>
          t.qp i q = k ∧ (t.blk (ppBlk i)).ctlIn = rest))) ∧
      (isMrOff a.off 0 = true →
        let m := mrOf a.off
        let r := lget ({} : Region) n.mrs m
        let b := bits r.loc.toNat 21 9
        let ok := m < n.malloc ∧ 1 ≤ r.len.toNat ∧ r.loc.toNat % 2 ^ 21 + r.len.toNat ≤ 2 ^ 21 ∧ b < nBlocks ∧
          u.samePart (ppBlk i) b = true ∧ (bit a.val 30 = true ∨ bit a.val 29 = true)
        (bit a.val 31 = true → ok → does (.mrValidSet i) (fun t => (t.blk (ppBlk i)).ctlIn = rest ∧
          (lget ({} : Region) (t.nte i).mrs m).ctl = BitVec.ofNat 32 (a.val &&& mrCtlMask))) ∧
        (bit a.val 31 = true → ¬ ok → does (.mrValidSet i) (fun t => (t.nte i).mrs = n.mrs)) ∧
        (bit a.val 31 = false → m < n.malloc → does (.mrValidClear i) (fun t =>
          (lget ({} : Region) (t.nte i).mrs m).ctl.getLsbD 31 = false ∧
          ((∃ x ∈ n.accs, x.mr = m ∧ x.use = .place) → n.closing = [] → (t.nte i).closing.length = 1)))))

/-- While firmware runs, COMMAND_ITEM takes the oldest message of a packet port's command channel: one that fails a header check is answered with its status and has no other effect (DENIED is also logged); one that passes joins its queue (64 items of a partition, 16 of management) with the next place of arrival, and is answered BUSY when that queue is full. ITEM_START of a queue with no item in progress starts an item of highest PRIO among those that no ORD item holds back, and none while one is in progress. COMMAND_TIMEOUT answers the first expired item TIMEOUT: one that has not started leaves its queue; one that runs and carries no mark A stays and is answered once, one with the mark is undone. An item of a partition whose packet ports have all failed is answered TIMEOUT at its start. FLUSH_QUEUE answers every waiting item of the partition FLUSHED and leaves the one in progress. An answered item has left its queue, and an answer changes no memory and no cobble. Model choice: log 63, 88. Every clause on a command concludes that exec answers a next state. -/
def Obligations.CommandItemsAreQueuedStartedAndAnswered : Prop :=
  ∀ (s : State), s.fwUp = true → canonFrom [] 0 s.queues = true →
    (∀ pp m ms, s.stagedPp pp → lget [] (s.port (ppPort pp)).inbox 0 = m :: ms → fld m 0 1 ≠ 0xE0 →
      let u := s.setPort (ppPort pp) { s.port (ppPort pp) with inbox := cset [] (s.port (ppPort pp)).inbox 0 ms }
      let i := Item.mk pp m 0 s.ticks false false false
      let st := u.headerCheck i (opRow i.op)
      (st = stDenied → runs (.commandItem pp) s (fun t => t.queues = s.queues ∧ sameMemory s t ∧
        t.logSlots.any (fun l => l.kind == 4 && l.id == pp) = true)) ∧
      (st ≠ stOk → st ≠ stDenied → exec (.commandItem pp) s = .next (u.answer i { status := st })) ∧
      (∀ r, st = stOk → opRow i.op = some r → (i.part < 10 → (s.partn i.part).lost = false) →
        let q := if r.mgmt then 10 else i.part
        ((s.queue q).any (fun x => x.op == 0x93 && x.started) = true → i.op ≠ 0x92 ∧ i.op ≠ 0x93) →
        ((if r.mgmt then 16 else 64) ≤ (s.queue q).length → exec (.commandItem pp) s = .next (u.answer i { status := stBusy })) ∧
        ((s.queue q).length < (if r.mgmt then 16 else 64) →
          (r.mgmt = true → ((s.queue q).filter (fun x => x.fld 10 2 == i.fld 10 2)).length < s.aon.srcfg.toNat % 16) →
          runs (.commandItem pp) s (fun t => t.queue q = s.queue q ++ [{ i with seq := s.itemSeq }] ∧
            t.itemSeq = s.itemSeq + 1 ∧ (∀ q', q' ≠ q → t.queue q' = s.queue q') ∧ sameMemory s t ∧ sameRegisters s t)))) ∧
    (∀ q, q < 11 → s.activating = false → (q < 10 → (s.partn q).fenced = false) →
      (∀ i, s.inProg q = some i → exec (.itemStart q) s = .next s) ∧
      (∀ i, s.inProg q = none → nextItem (s.queue q) = some i → q < 10 → s.portsLost q = true →
        exec (.itemStart q) s = .next (s.finish q i { status := stTimeout })) ∧
      (∀ i, s.inProg q = none → nextItem (s.queue q) = some i → (q < 10 → s.portsLost q = false) →
        i ∈ startable (s.queue q) ∧ (∀ x ∈ startable (s.queue q), x.prio ≤ i.prio) ∧
        runs (.itemStart q) s (fun t => sameMemory s t ∧ sameRegisters s t ∧ t.ports = s.ports ∧
          t.queue q = (s.queue q).map (fun x => if x.seq = i.seq then { x with started := true } else x)))) ∧
    (∀ l : List Item, (∀ i ∈ startable l, i ∈ l) ∧
      (∀ a b c : List Item, ∀ x y, l = a ++ x :: b ++ y :: c → x.ord = true → (∀ z ∈ a ++ x :: b, z ≠ y) → y ∉ startable l)) ∧
    (∀ q i, q < 11 → (s.queue q).find? (fun i => i.expired s.ticks) = some i →
      (i.started = false → exec (.commandTimeout q) s = .next (s.finish q i { status := stTimeout })) ∧
      (i.started = true → ((opRow i.op).map (·.undo)).getD false = false → runs (.commandTimeout q) s (fun t =>
        sameMemory s t ∧ t.queue q = (s.queue q).map (fun x => if x.seq = i.seq then { x with answered := true } else x))) ∧
      (i.started = true → ((opRow i.op).map (·.undo)).getD false = true → exec (.commandTimeout q) s =
        .next ((s.undo i).finish q i { status := stTimeout }))) ∧
    (∀ i, s.inProg 10 = some i → i.op = 0x56 → i.part < 10 → runs .flushQueue s (fun t => sameMemory s t ∧ sameRegisters s t ∧
      t.queue i.part = (s.queue i.part).filter (·.started) ∧ t.queue 10 = (s.queue 10).filter (fun x => x.seq != i.seq))) ∧
    (∀ q i r, let t := s.finish q i r
      t.queue q = (s.queue q).filter (fun x => x.seq != i.seq) ∧ (∀ q', q' ≠ q → t.queue q' = s.queue q') ∧
      sameMemory s t ∧ sameRegisters s t ∧ t.blks = s.blks ∧ t.isls = s.isls)

/-- With the command in progress and firmware running: IDENTIFY replies 160 bytes of identity. READ_STEPCNT, LINK_STATUS, READ_LOG reply the counters, registers and records; READ_PARTMAP, QUERY_PARTITION and READ_ERRCNT reply data whose layout the spec leaves open. SET_PLAN of a valid plan keeps it for the next chip reset. SET_SLOT_MODE records the requested modes of idle slots that may fuse (NO_RESOURCE, BUSY otherwise). Over the service ring SET_SIGPERM writes the register of a block of the partition. SIGNAL adds, sets or reads an object with its permission. BIND_STREAM of a free port in service sets the binding VALID; UNBIND_STREAM clears it. NTE_ENDPOINT writes the endpoint of a slice with no queue pair in RTS. QP_CONNECT takes an allotted queue pair from RESET to RTS with the command's PSNs; QP_DISCONNECT takes it to RESET once no placement is outstanding. LINK_TRAIN starts training of a DOWN or FAILED port and answers later; LINK_RETIRE retires a port. A parameter out of range is answered BAD_PARAM and changes nothing else. Model choice: log 32, 34, 35, 63, 86, 89, 102. Every clause on a command concludes that exec answers a next state. -/
def Obligations.CommandsInspectAndConfigure : Prop :=
  ∀ (s : State) (q : Nat) (i : Item), s.fwUp = true → s.inProg q = some i →
    let ends := fun (x : Instr) (t : State) (r : Reply) => exec x s = .next (t.finish q i r)
    let bad := fun (x : Instr) => exec x s = .next (s.finish q i { status := stBadParam })
    (q = 10 →
      (i.op = 0x00 → ends .identify s { data := s.identity } ∧ s.identity.length = 160) ∧
      (i.op = 0x01 → (1024 ≤ i.fld 32 2 → bad .readStepcnt) ∧ (i.fld 32 2 < 1024 → ends .readStepcnt s {
        data := ((List.range 10).filter (bit (i.fld 32 2))).flatMap (fun n => (List.range 8).flatMap (fun k =>
          toBytes 8 ((s.isl n).counter k).toNat)) ++ toBytes 8 s.pktime.toNat })) ∧
      (i.op = 0x02 → ∃ d, ends .readPartmap s { data := d }) ∧
      (i.op = 0x10 → let n := i.fld 32 1
        let ps := (List.range n).map (fun p => planEntry ((i.bytes.drop (64 + 32 * p)).take 32))
        (10 < n ∨ planClash [] ps = true ∨ ps.all PlanPart.ok = false → bad .setPlan) ∧
        (n ≤ 10 → 64 + 32 * n ≤ i.bytes.length → ((i.bytes.take 64).drop 33).all (· == 0) = true →
          (i.bytes.drop (64 + 32 * n)).all (· == 0) = true → ps.all PlanPart.ok = true → planClash [] ps = false →
          ps.any s.planSeam = false → ends .setPlan ((s.modAon (fun a => { a with plan := ps, nvPlan := ps })).hub 3 0 (i.bytes.drop 64)) {})) ∧
      (i.op = 0x45 → (172 ≤ i.fld 32 1 → bad .linkStatus) ∧ (i.fld 32 1 < 172 → ends .linkStatus s {
        data := (s.port (i.fld 32 1)).regs.flatMap (fun w => toBytes 4 w.toNat) })) ∧
      (i.op = 0x46 → i.going = false → i.fld 33 1 ≤ 1 → ∀ p, p = i.fld 32 1 → p < 172 →
        ((s.port p).st = 1 ∨ (s.port p).st = 2 ∨ (s.port p).st = 4 → ends .linkTrain s { status := stBusy }) ∧
        ((s.port p).st = 0 ∨ (s.port p).st = 3 → s.aon.pkgclass.toNat < 2 → runs .linkTrain s (fun t =>
          (t.port p).st = 1 ∧ (t.port p).ph = 0 ∧ (t.port p).lead = true ∧ (t.port p).full = (i.fld 33 1 == 1) ∧ sameMemory s t))) ∧
      (i.op = 0x47 → (172 ≤ i.fld 32 1 → bad .linkRetire) ∧ (i.fld 32 1 < 172 → runs .linkRetire s (fun t =>
        (t.port (i.fld 32 1)).st = 4 ∧ sameMemory s t))) ∧
      (i.op = 0x63 → (nBlocks ≤ i.fld 32 2 → bad .readErrcnt) ∧
        (i.fld 32 2 < nBlocks → i.cls ≠ 2 → ∃ d, ends .readErrcnt s { data := d })) ∧
      (i.op = 0x60 → (i.fld 36 2 = 0 ∨ 127 < i.fld 36 2 → bad .readLog) ∧
        (1 ≤ i.fld 36 2 → i.fld 36 2 ≤ 127 → s.aon.log = [] → ends .readLog s {
          detail := s.aon.logseq.toNat + s.aon.loglost.toNat * 2 ^ 32 }) ∧
        (∀ r rest, 1 ≤ i.fld 36 2 → i.fld 36 2 ≤ 127 → s.aon.log = r :: rest → r.seq = BitVec.ofNat 32 (i.fld 32 4) →
          ends .readLog s { detail := r.seq.toNat + s.aon.loglost.toNat * 2 ^ 32,
                            data := ((r :: rest).take (i.fld 36 2)).flatMap LogRec.bytes }))) ∧
    (q < 10 →
      (i.op = 0x14 → ∃ d, ends (.queryPartition q) s { data := d }) ∧
      (i.op = 0x13 → let sl := partSlots (s.partn q).pdef
        let sel := i.fld 32 4
        let modes := i.fld 36 4
        let all := sl.foldl (fun a e => a + 2 ^ e.1) 0
        let open_ := ∀ e ∈ sl, bit sel e.1 = true → bit modes e.1 = true → s.fusable e.2 = true
        let idle := ∀ e ∈ sl, bit sel e.1 = true → (s.slot e.2).reqPz ≠ bit modes e.1 → s.slotActive e.2 = false
        (sel &&& all ≠ sel ∨ modes &&& all ≠ modes → bad (.setSlotMode q)) ∧
        (sel &&& all = sel → modes &&& all = modes → ¬ open_ → ends (.setSlotMode q) s { status := stNoResource }) ∧
        (sel &&& all = sel → modes &&& all = modes → open_ → ¬ idle → ends (.setSlotMode q) s { status := stBusy }) ∧
        (sel &&& all = sel → modes &&& all = modes → open_ → idle →
        runs (.setSlotMode q) s (fun t => sameMemory s t ∧ sameRegisters s t ∧ ∀ k < 20,
          ((∃ n, (n, k) ∈ sl ∧ bit sel n = true) → ∃ n, (n, k) ∈ sl ∧ (t.slot k).reqPz = bit modes n) ∧
          ((∀ n, (n, k) ∈ sl → bit sel n = false) → t.slot k = s.slot k)))) ∧
      (i.op = 0x30 → (s.inPart q (i.fld 32 2) = false → bad (.setSigperm q)) ∧ (∀ b, i.fld 32 2 = b → s.inPart q b = true →
        ends (.setSigperm q) (s.ringSend q (islOfBlk b) (.write 0 b 0x150C (i.fld 34 2))) {} ∧
        (ringFree s q (islOfBlk b) → runs (.setSigperm q) s (fun t => sameMemory s t ∧
          (t.blk b).sigperm = BitVec.ofNat 16 (i.fld 34 2))))) ∧
      (i.op = 0x31 → let obj := i.fld 34 2
        let b := obj / 16
        let w := lget 0 (s.blk b).sync (obj % 16)
        (2 < i.fld 32 1 ∨ 5120 ≤ obj ∨ 2 ^ 31 ≤ i.fld 36 4 → bad (.signal q)) ∧
        (obj < 5120 → i.fld 36 4 < 2 ^ 31 → s.inPart q b = true → (s.blk b).fence = false → (s.blk b).rstFence = false →
          (s.blk b).sigperm.getLsbD (obj % 16) = true →
          (i.fld 32 1 = 0 → syncValue w + i.fld 36 4 < 2 ^ 31 → runs (.signal q) s (fun t => sameMemory s t ∧
            syncValue (lget 0 (t.blk b).sync (obj % 16)) = syncValue w + i.fld 36 4)) ∧
          (i.fld 32 1 = 1 → runs (.signal q) s (fun t => sameMemory s t ∧
            lget 0 (t.blk b).sync (obj % 16) = BitVec.ofNat 32 (i.fld 36 4))) ∧
          (i.fld 32 1 = 2 → ends (.signal q) s { data := toBytes 4 w.toNat }))) ∧
      (i.op = 0x40 ∨ i.op = 0x41 → ∀ l n, l = i.fld 32 1 → n = i.fld 33 1 → l < 10 → (s.isl l).part = q → n ≤ 15 →
        s.bindBusy (16 * l + n) = false →
        (i.op = 0x41 → ringFree s q l → bits (lget 0 (s.isl l).sbind n).toNat 29 2 ≠ 3 →
          runs (.unbindStream q) s (fun t => sameMemory s t ∧ sameRegisters s t ∧ sbValid (lget 0 (t.isl l).sbind n) = false)) ∧
        (i.op = 0x40 → let p := i.fld 36 1
          ringFree s q l → i.fld 34 1 ≤ 2 → i.fld 35 1 ≤ 1 → i.fld 37 1 ≤ 63 → p < 160 → (s.isl (p / 16)).part = q → s.portUp p = true →
          (∀ m < 160, m ≠ 16 * l + n → sbValid (s.sbind m) = true → sbPort (s.sbind m) ≠ p) →
          runs (.bindStream q) s (fun t => sameMemory s t ∧ sameRegisters s t ∧ let r := lget 0 (t.isl l).sbind n
            sbValid r = true ∧ sbRetired r = false ∧ sbKind r = i.fld 34 1 ∧ sbInfe r = (i.fld 35 1 == 1) ∧ sbPort r = p ∧
            sbFar r = i.fld 37 1))) ∧
      (i.op = 0x42 → i.fld 32 1 < 10 → (s.isl (i.fld 32 1)).part = q → i.fld 46 2 ≤ 4095 → i.fld 48 1 ≤ 7 →
        (s.nte (i.fld 32 1)).qps.any (fun e => e.2.stat == 1) = false → runs (.nteEndpoint q) s (fun t =>
          sameMemory s t ∧ (t.nte (i.fld 32 1)).mac = BitVec.ofNat 48 (i.fld 40 6) ∧ (t.nte (i.fld 32 1)).vlan = i.fld 46 2 ∧
          (t.nte (i.fld 32 1)).qps = (s.nte (i.fld 32 1)).qps)) ∧
      (i.op = 0x43 → ∀ l n, l = i.fld 32 1 → n = i.fld 34 2 → l < 10 → (s.isl l).part = q → (qpSettings i).ok = true →
        ((s.nte l).qalloc ≤ n → ends (.qpConnect q) s { status := stNoResource }) ∧
        (n < (s.nte l).qalloc → (s.qp l n).stat ≠ 0 → ends (.qpConnect q) s { status := stBusy }) ∧
        (n < (s.nte l).qalloc → (s.qp l n).stat = 0 → runs (.qpConnect q) s (fun t => sameMemory s t ∧
          (t.qp l n).stat = 1 ∧ (t.qp l n).set = qpSettings i ∧ (t.qp l n).nextPsn = i.fld 72 3 ∧ (t.qp l n).una = i.fld 72 3 ∧
          (t.qp l n).epsn = i.fld 75 3 ∧ (t.qp l n).sqcfg = (s.qp l n).sqcfg))) ∧
      (i.op = 0x44 → ∀ l n, l = i.fld 32 1 → n = i.fld 34 2 → l < 10 → (s.isl l).part = q → n < 512 →
        let u := s.nteTake l
        let held := (u.nte l).accs.any (fun a => a.qp == n && (a.use == .place || a.use == .recv))
        (held = true → exec (.qpDisconnect q) s = .next u) ∧
        (held = false → runs (.qpDisconnect q) s (fun t => sameMemory s t ∧ (t.qp l n).stat = 0 ∧ (t.qp l n).works = [] ∧
          (t.qp l n).sqcfg = (u.qp l n).sqcfg ∧ (t.qp l n).err = (u.qp l n).err))))

/-- The row by which an action advances. -/
def actionRow (a : Action) (x : Instr) : Prop :=
  (a.kind = .switch ∧ x = .contextSwitch a.part) ∨ (a.kind = .reset ∧ x = .resetPartition a.part) ∨
  (a.kind = .open ∧ x = .openPartition a.part) ∨ (a.kind = .close ∧ x = .closePartition a.part) ∨
  (a.kind = .block ∧ x = .resetBlock a.unit) ∨ (a.kind = .cobble ∧ x = .resetCobble a.unit) ∨
  (a.kind = .engine ∧ x = .resetEngine (a.unit / 4) (a.unit % 4))

/-- An action is the one that its row advances, and its unit exists. -/
def actionRuns (s : State) (a : Action) : Prop :=
  s.aon.acts.find? (fun x => x.kind == a.kind && (if a.rank = 2 then x.part == a.part else x.unit == a.unit)) = some a ∧
    a.part < 10 ∧ (a.kind = .block → a.unit < nBlocks) ∧ (a.kind = .cobble → a.unit < nCobbles) ∧
    (a.kind = .engine → a.unit < 4 * nBlocks)

/-- An action of a kind on a unit of a partition is in its drain phase, for item `i`. -/
def drains (t : State) (kind : ActKind) (p u : Nat) (i : Item) : Prop :=
  ∃ a ∈ t.aon.acts, a.kind = kind ∧ a.part = p ∧ a.unit = u ∧ a.phase = 1 ∧ a.item = some i.seq

/-- While firmware runs, with no action on the partition: OPEN_PARTITION, CLOSE_PARTITION, CONTEXT_SWITCH and RESET_PARTITION fence every block of the partition, end its running context and answer the item in progress, and leave the action draining (CLOSE first flushes its queue; OPEN stores the dump key); RESET_BLOCK fences its fence set; RESET_COBBLE holds its cobble; RESET_ENGINE holds its engine and records its work contexts as suspects; FENCE_COMMAND fences and is answered. A running action waits while its domain is not drained, then moves on; DRAIN_LIMIT moves it on when its limit has passed, a cobble's requests abandoned. The clear phase orders over the service ring the clear of every island of the partition and waits for the reports; the end lifts every fence but those of defective blocks, opens or closes the partition, and ends the action; a partition reset that waited for it then starts. A block's clear leaves its memories 0, its cobbles and sync objects cleared; a cobble's reset clears that cobble alone, or restarts it at the entry address of the running context; an engine's reset releases the engine. RESET_PHASE_LIMIT ends a collection of 8 ms and repeats the reset once; PARTITION_LOST takes the islands off their rails and sets code 0x4. ENGINE_WATCHDOG sets the HUNG bit of a hung engine alone; ENGINE_RESET_LIMIT resets the partition; GUILTY_PARTY_REPLAY clears a suspect whose replay completed, replays the next, and ends the search when none is left. Model choice: log 65, 66, 89. Every clause on a command concludes that exec answers a next state. -/
def Obligations.RecoveryActionsFenceDrainClearAndLift : Prop :=
  ∀ (s : State), s.fwUp = true → canonFrom [] 0 s.queues = true →
    (∀ p i, p < 10 → s.inProg 10 = some i → i.part = p → (∀ a ∈ s.aon.acts, a.part ≠ p) →
      let fenced := fun (t : State) => (t.partn p).fenced = true ∧ (∀ b ∈ s.partBlocks p, (t.blk b).rstFence = true) ∧
        ((s.partn p).run = 1 → (t.partn p).run = 2) ∧ sameMemory s t
      let free := fun (k : ActKind) (u : Nat) => ∀ a ∈ s.aon.acts, a.kind = k → a.unit ≠ u
      (s.testing p = false →
        (∀ x kind op, (x, kind, op) ∈ [(Instr.contextSwitch p, ActKind.switch, 0x50), (.resetPartition p, .reset, 0x51)] →
          i.op = op → runs x s (fun t => fenced t ∧ drains t kind p 0 i ∧
            ∀ j, s.inProg p = some j → t.queue p = (s.queue p).filter (fun x => x.seq != j.seq))) ∧
        (i.op = 0x11 → (s.partn p).isOpen = false →
          runs (.openPartition p) s (fun t => (t.partn p).fenced = true ∧ (∀ b ∈ s.partBlocks p, (t.blk b).rstFence = true) ∧
            drains t .open p 0 i ∧ (t.partn p).dumpkey = (i.bytes.drop 32).take 32 ∧ (t.partn p).imgkeyen = (i.fld 64 1 == 1) ∧
            (t.partn p).isOpen = false)) ∧
        (i.op = 0x12 → (s.partn p).isOpen = true → s.inProg p = none →
          runs (.closePartition p) s (fun t => fenced t ∧ drains t .close p 0 i ∧ t.queue p = []))) ∧
      (i.op = 0x11 → (s.partn p).isOpen = true → exec (.openPartition p) s = .next (s.finish 10 i { status := stBusy })) ∧
      (∀ b, b = i.fld 32 2 → i.op = 0x52 → free .block b → (s.inPart p b = false → b < nBlocks →
          exec (.resetBlock b) s = .next (s.finish 10 i { status := stBadParam })) ∧
        (s.inPart p b = true → (s.isl (islOfBlk b)).stRun = none →
          runs (.resetBlock b) s (fun t => drains t .block p b i ∧ (∀ x ∈ s.fenceSet b, (t.blk x).rstFence = true) ∧
            sameMemory s t))) ∧
      (∀ b c, b = i.fld 32 2 → c = b * 256 + i.fld 34 1 → i.op = 0x53 → free .cobble c → s.inPart p b = true →
        (s.pzActive b = true → c = ctlCobble (slotOfBlk b)) → (s.isl (islOf c)).stRun = none →
        runs (.resetCobble c) s (fun t => drains t .cobble p c i ∧ (t.cob c).rstHold = true ∧ otherCobbles c s t ∧ sameMemory s t)) ∧
      (∀ b e, b = i.fld 32 2 → e = i.fld 34 1 → i.op = 0x54 → free .engine (4 * b + e) → s.inPart p b = true → engExists b e = true →
        (s.isl (islOfBlk b)).stRun = none → (s.contexts b e).length ≤ 32 →
        runs (.resetEngine b e) s (fun t => drains t .engine p (4 * b + e) i ∧ e ∈ (t.blk b).engHold ∧
          (t.blk b).engstat.getLsbD 4 = true ∧ t.aon.susp = s.aon.susp.filter (fun x => !x.isOf b e) ++ s.contexts b e ∧
          sameMemory s t ∧ sameRegisters s t)) ∧
      (i.op = 0x55 →
        (i.fld 32 1 = 0 → runs .fenceCommand s (fun t => (t.partn p).fenced = true ∧
          (∀ b ∈ s.partBlocks p, (t.blk b).rstFence = true) ∧ sameMemory s t)) ∧
        (∀ b, b = i.fld 34 2 → i.fld 32 1 = 1 → s.inPart p b = true → runs .fenceCommand s (fun t =>
          (∀ x ∈ s.fenceSet b, (t.blk x).rstFence = true) ∧ t.parts = s.parts ∧ sameMemory s t)))) ∧
    (∀ a row, actionRuns s a → actionRow a row →
      let goes := fun (f : State → Prop) => runs row s f
      let ended := fun (t : State) => s.aon.resetDue.contains a.part = false → ∀ x ∈ t.aon.acts, x.same a = false
      (a.phase = 1 → s.actDrained a = false → exec row s = .next s) ∧
      (a.phase = 1 → s.actDrained a = true → exec row s = .next (s.toPhase a 2)) ∧
      (∀ n, s.aon.acts[n]? = some a → (a.phase ≠ 1 ∨ s.ticks < a.tick + a.drainLimit → exec (.drainLimit n) s = .next s) ∧
        (a.phase = 1 → a.tick + a.drainLimit ≤ s.ticks → runs (.drainLimit n) s (fun t =>
          (∃ x ∈ t.aon.acts, x.same a = true ∧ x.phase = 2) ∧ sameMemory s t ∧
          (a.kind = .cobble → (t.cob a.unit).loads = [] ∧ (t.cob a.unit).stores = [] ∧
            ∀ g ∈ (s.cob a.unit).openTags, g ∈ (t.cob a.unit).goneTags)))) ∧
      (a.rank = 2 →
        (a.phase = 2 → a.kind = .open ∨ a.kind = .close → exec row s = .next (s.toPhase a 4)) ∧
        (a.phase = 2 → a.kind = .reset → (s.partn a.part).isOpen = true → (s.partn a.part).dseq < 2 ^ 56 → goes (fun t =>
          (∃ r ∈ t.aon.dumps, r.part = a.part ∧ r.kind = 1 ∧ r.seq = (s.partn a.part).dseq) ∧ sameMemory s t)) ∧
        (a.phase = 4 → s.aon.ringq = [] → goes (fun t => (∀ n ∈ s.islsOf a.part, (s.aon.ringWay n).isSome = true →
            (t.isl n).ordered = true ∧ (t.isl n).cleared = false) ∧ t.aon.ringq = [] ∧
          (∀ n < 10, n ∉ s.islsOf a.part → t.isl n = s.isl n) ∧ sameMemory s t)) ∧
        (a.phase = 5 → (∃ n ∈ s.islsOf a.part, (s.isl n).ordered = true ∨ (s.isl n).cleared = true) → exec row s = .next s) ∧
        (a.phase = 5 → (∀ n ∈ s.islsOf a.part, (s.isl n).ordered = false ∧ (s.isl n).cleared = false) →
          exec row s = .next (s.toPhase a 6)) ∧
        (a.phase = 6 → s.aon.resetDue.contains a.part = true → (∀ x ∈ s.aon.acts, x.part = a.part → x.same a = true) →
          goes (fun t => ∃ x ∈ t.aon.acts, x.kind = .reset ∧ x.part = a.part ∧ x.phase = 0)) ∧
        (a.phase = 6 → goes (fun t => ended t ∧ (t.partn a.part).fenced = false ∧ sameMemory s t ∧ sameRegisters s t ∧
          (∀ b ∈ s.partBlocks a.part, (t.blk b).rstFence = s.defective b) ∧
          (a.kind = .open → (t.partn a.part).isOpen = true) ∧
          (a.kind = .close → (t.partn a.part).isOpen = false ∧ (t.partn a.part).image = none ∧ (t.partn a.part).dumpkey = [])))) ∧
      (a.kind = .block → a.phase = 4 → goes (fun t => ended t ∧
        (∀ b ∈ s.actBlks a, (t.blk b).sync = [] ∧ (t.blk b).lines = [] ∧ (t.blk b).chans = [] ∧ (t.blk b).rstFence = s.defective b ∧
          (t.blk b).cecnt = (s.blk b).cecnt) ∧
        (∀ c, t.cob c = if blkOf c ∈ s.actBlks a then (s.cob c).clear else s.cob c) ∧
        (∀ x, lget 0 t.mem x = if blkOfFlat x ∈ s.actBlks a then 0 else lget 0 s.mem x))) ∧
      (a.kind = .cobble → a.phase = 2 → (s.cob a.unit).pz = false → goes (fun t => ended t ∧ otherCobbles a.unit s t ∧ sameMemory s t ∧
        ((s.partn a.part).run ≠ 1 → t.cob a.unit = (s.cob a.unit).clear) ∧
        (∀ m v, (s.partn a.part).image = some m → m.vars[(s.partn a.part).variant]? = some v → (s.partn a.part).run = 1 →
          (s.slotOf a.unit).active = false → (t.cob a.unit).pc = BitVec.ofNat 64 v.entc ∧ (t.cob a.unit).run = .running ∧
            (t.cob a.unit).codelim = v.climc ∧ (t.cob a.unit).ints = [] ∧ (t.cob a.unit).rstHold = false))) ∧
      (a.kind = .engine → a.phase = 2 → goes (fun t => ended t ∧ a.unit % 4 ∉ (t.blk a.blk).engHold ∧
        (t.blk a.blk).engstat.toNat / 2 ^ 24 = min 255 ((s.blk a.blk).engstat.toNat / 2 ^ 24 + 1))) ∧
      (a.kind = .engine → ∀ b e, a.unit = 4 * b + e → e < 4 →
        let limit := a.tick + (if a.phase ≤ 1 then 200000 else 100000)
        (s.ticks < limit → exec (.engineResetLimit b e) s = .next s) ∧
        (limit ≤ s.ticks → exec (.engineResetLimit b e) s = .next (s.escalate a.part))) ∧
      (a.kind = .reset → a.phase = 2 → a.tick + 800000 ≤ s.ticks → runs (.resetPhaseLimit a.part) s (fun t =>
        (∃ x ∈ t.aon.acts, x.same a = true ∧ x.phase = 4) ∧ sameMemory s t)) ∧
      (a.kind = .reset → a.phase = 5 → a.tick + 50000 ≤ s.ticks → exec (.resetPhaseLimit a.part) s = .next (s.setAct
        (if a.tries = 0 then { a with tries := 1, phase := 0, tick := s.ticks } else { a with tries := 2 })))) ∧
    (∀ p, p < 10 → s.aon.acts.find? (fun a => a.kind == .reset && a.part == p && a.tries == 2) ≠ none →
      runs (.partitionLost p) s (fun t => (t.partn p).lost = true ∧ (t.partn p).run ≠ 1 ∧ t.queue p = [] ∧
        t.aon.attn.getLsbD 4 = true ∧ (∀ n ∈ s.islsOf p, (t.isl n).powered = false) ∧ sameMemory s t ∧ sameRegisters s t)) ∧
    (∀ b e, b < nBlocks → e < 4 →
      (s.engHung b e = false → exec (.engineWatchdog b e) s = .next s) ∧
      (s.engHung b e = true → s.engOff b e = false → (∀ x ∈ s.aon.susp, x.isOf b e = false) →
        runs (.engineWatchdog b e) s (fun t => (t.blk b).engstat.getLsbD e = true)) ∧
      ((s.blk b).engstat.getLsbD 4 = true → (∀ a ∈ s.aon.acts, a.kind = .engine → a.unit ≠ 4 * b + e) →
        let xs := s.aon.susp.filter (fun x => x.isOf b e)
        (∀ x, xs.find? (fun x => x.verdict == 1) = some x → s.replayed x = true →
          exec (.guiltyPartyReplay b e) s = .next (s.modSusp x (fun y => { y with verdict := 2 }))) ∧
        (∀ x, xs.find? (fun x => x.verdict == 1) = none → xs.find? (fun x => x.verdict == 0) = some x →
          (∀ y ∈ s.aon.susp, y.alike x = true → y.isOf b e = false → y.verdict = 0) →
          exec (.guiltyPartyReplay b e) s = .next (s.startReplay x)) ∧
        ((∀ x ∈ xs, x.verdict ≠ 0 ∧ x.verdict ≠ 1) → runs (.guiltyPartyReplay b e) s (fun t =>
          (∀ x ∈ t.aon.susp, x.isOf b e = false) ∧ sameMemory s t ∧ sameRegisters s t))))

/-- While firmware runs and the item is in progress: LOAD_IMAGE with a context running is BUSY; one that fails a format or whole-image check is BAD_IMAGE with that check's reason; one no variant of which passes is NO_RESOURCE; any other replaces the partition's image with the variants that pass. UNLOAD_IMAGE removes the image, or is BUSY. LAUNCH without an image is BAD_PARAM 0x41, with a context running BUSY, with a shape of another NDIM BAD_PARAM 0x40, without a port in service NO_RESOURCE 0x28, with no variant that covers the shape NO_BUCKET; otherwise, where a covering variant passes, the smallest such variant runs: the context starts with its shape, the allotments are the variant's sums, every block in service has its cobbles released at the entry address in the launch state, or gated in a piazza, and a piazza's masks come from the shape. The package's memory holds the image. -/
def imagesAreCheckedLoadedAndLaunched : Prop :=
  ∀ (s : State) (p : Nat) (data : List Byte) (item : Item), s.fwUp = true → p < 10 → s.inProg p = some item →
    let k := s.partn p
    (item.op = 0x20 →
      let m := item.bytes.drop manAt
      let i := imageOf (item.fld 32 8) m
      let passes := fun v => s.varCheck p i false v = none
      let ends := fun (r : Reply) => exec (.loadImage p data) s = .next (s.finish p item r)
      let staged := (s.hub 6 i.base (toBytes 8 i.len)).hub 2 i.base (toBytes 8 i.len)
      let gives := fun (r : Reply) => exec (.loadImage p data) s = .next ((staged.hub 7 i.base []).finish p item r)
      (k.run = 1 → ends { status := stBusy }) ∧
      (k.run ≠ 1 → formatCheck m i ≠ 0 → ends { status := stBadImage, reason := formatCheck m i }) ∧
      (k.run ≠ 1 → formatCheck m i = 0 → s.imageCheck p item i m data ≠ 0 →
        gives { status := stBadImage, reason := s.imageCheck p item i m data }) ∧
      (k.run ≠ 1 → formatCheck m i = 0 → s.imageCheck p item i m data = 0 →
        ((∀ v < i.vars.length, ¬ passes v) → ∃ r, r.status = stNoResource ∧ gives r) ∧
        (∀ v, v < i.vars.length → passes v → runs (.loadImage p data) s (fun t => (t.partn p).image = some i ∧
          (∀ w < i.vars.length, (bit (t.partn p).usable w = true ↔ passes w)) ∧ (t.partn p).run = k.run ∧
          (∀ q, q ≠ p → t.partn q = s.partn q) ∧ sameMemory s t ∧ sameRegisters s t ∧
          (i.lmb ≠ 0 → ∀ e ∈ partSlots k.pdef, (s.slot e.2).reqPz = true ∨ (s.slot e.2).active = true → (t.slot e.2).lmb = i.lmb))))) ∧
    (item.op = 0x21 → exec (.unloadImage p) s = .next (if k.run = 1 then s.finish p item { status := stBusy } else
      ((match k.image with
        | some i => s.hub 7 i.base []
        | none => s).modPart p (fun k => { k with image := none, usable := 0 })).finish p item {})) ∧
    (item.op = 0x22 → (∀ n ∈ s.islsOf p, (s.isl n).stRun = none) →
      let shape := (List.range 4).map (fun j => item.fld (32 + 4 * j) 4)
      let ends := fun (r : Reply) => exec (.launch p data) s = .next (s.finish p item r)
      (k.image = none → ends { status := stBadParam, reason := 0x41 }) ∧
      (∀ i, k.image = some i →
        let covering := fun v => ∃ x, i.vars[v]? = some x ∧ covers i.ndim shape x = true
        let size := fun (v : Nat) => (i.vars[v]?.map (fun x => x.size i.ndim)).getD 0
        let fits := fun v => covering v ∧ s.varCheck p i true v = none
        (k.run = 1 → ends { status := stBusy }) ∧
        (k.run ≠ 1 → (∃ j < 4, (j < i.ndim ↔ shape.getD j 0 = 0)) → ends { status := stBadParam, reason := 0x40 }) ∧
        (k.run ≠ 1 → (∀ j < 4, (j < i.ndim ↔ shape.getD j 0 ≠ 0)) →
          (s.service p = false → ends { status := stNoResource, reason := 0x28 }) ∧
          (s.service p = true → (∀ v, ¬ covering v) → ends { status := stNoBucket }) ∧
          (s.service p = true → (∀ v, ¬ fits v) → (∃ v, covering v) → ∃ r, r.status = stNoResource ∧ ends r) ∧
          (s.service p = true → (∃ v, fits v) → runs (.launch p data) s (fun t =>
            (t.partn p).run = 1 ∧ (t.partn p).launchT = s.pktime ∧ (t.partn p).shape = shape ∧
            ∃ v x, fits v ∧ (∀ w, fits w → size v ≤ size w) ∧ i.vars[v]? = some x ∧ (t.partn p).variant = v ∧
              (∀ b ∈ s.partBlocks p, (t.blk b).dmaAlloc = s.total p i.ress v 5 b (·.a) ∧
                (t.blk b).winAlloc = s.total p i.ress v 4 b (·.a) ∧ (t.blk b).expect = s.total p i.ress v 7 b (·.a)) ∧
              (∀ b ∈ s.partBlocks p, s.outOfService b = false → ∀ j < 256,
                let c := b * 256 + j
                let u := t.cob c
                u.cobid = cobidOf c ∧
                ((s.slotOf c).active = false → u.run = .running ∧ u.pc = BitVec.ofNat 64 x.entc ∧ u.codelim = x.climc ∧
                  u.trbase = BitVec.ofNat 64 x.trbc ∧ u.ints = [] ∧ u.fps = [] ∧ u.acc = [] ∧ u.hold = .none) ∧
                ((s.slotOf c).active = true → c = ctlCobble (slotOfBlk b) → u.run = .running ∧ u.pc = BitVec.ofNat 64 x.entp ∧
                  u.codelim = x.climp ∧ u.pz = true ∧ u.ints = []) ∧
                ((s.slotOf c).active = true → c ≠ ctlCobble (slotOfBlk b) → u.run = .gated ∧ u.codelim = 0)) ∧
              (∀ e ∈ partSlots k.pdef, (s.slot e.2).active = true → let q := t.slot e.2
                q.mrow = launchMask shape (x.map % 16) ∧ q.mcol = launchMask shape (x.map / 16) ∧ q.pamax = [] ∧
                q.vlc = 512 ∧ q.asleep = true))))))

/-- PWRGOOD rising samples the straps, sets package time to 0, not valid, and starts stage 1 with RESET_N high; its fall and VAON low lose power: all but the non-volatile store, fuses and pins takes its reset value. RESET_N low resets the chip and keeps the log and dump stores; its release starts. RESET_CHIP replies first, then resets. VIN_RAIL_CHANGE records its rail. MANAGEMENT_CORE_STAGE ends stage 1, or stops there in test mode. TIMEREF_ABSENT stops it with code 0x3 one second into stage 2 without an edge; RAIL_WAIT_EXPIRY makes a low rail's islands absent after 20 ms; TIMEBASE_STAGE powers the good islands that the ring reaches and trains the management ports. MANAGEMENT_PORT_STAGE stops with code 0x2 without a port or good image, else records boot code and phase. MEMORY_STAGE trains the ports of present islands; LINK_STAGE waits for training; COMPUTE_ISLAND_STAGE writes BLKMAP, sets up every partition of the plan that it does not omit, starts verified firmware and locks. START_FAILED: code 0x7 at 3.0 s. A row of another stage changes nothing. -/
def theStartRunsItsStages : Prop :=
  ∀ (s : State),
    let a := s.aon
    let lost := fun (t : State) => t.aon.pwrgood = false ∧ t.aon.stage = 0 ∧ t.mem = [] ∧ t.cobs = [] ∧ t.blks = [] ∧ t.queues = [] ∧
      t.aon.log = [] ∧ t.aon.dumps = [] ∧ t.fuses = s.fuses ∧ t.aon.nvPlan = a.nvPlan ∧ t.aon.nvFw = a.nvFw
    let kept := fun (t : State) => t.mem = [] ∧ t.cobs = [] ∧ t.blks = [] ∧ t.queues = [] ∧ t.aon.fw = 0 ∧ t.aon.bootph = 0 ∧
      t.aon.log = a.log.map (fun r => { r with sent := r.copied }) ∧ (∀ r ∈ a.dumps, r ∈ t.aon.dumps) ∧ t.fuses = s.fuses ∧ t.aon.nvPlan = a.nvPlan ∧ t.aon.nvFw = a.nvFw
    (∀ pos cls tm, (a.pwrgood = true → exec (.pwrgoodRise pos cls tm) s = .next s) ∧
      (a.pwrgood = false → runs (.pwrgoodRise pos cls tm) s (fun t => t.pos = pos ∧ t.aon.pkgclass = cls ∧ t.aon.testmode = tm ∧
        t.aon.pwrgood = true ∧ t.pktime = 0 ∧ t.aon.tbValid = false ∧ t.approx = true ∧ t.aon.edges = false ∧
        (a.resetN = true → a.stage = 0 → t.aon.stage = 1 ∧ t.aon.startTick = s.ticks) ∧ sameMemory s t))) ∧
    (a.pwrgood = true → runs .pwrgoodFall s lost ∧ runs .vaonLow s (fun t => lost t ∧ t.aon.vaon = false) ∧
      runs .resetNAssert s (fun t => kept t ∧ t.aon.resetN = false ∧ t.aon.stage = 0) ∧
      (a.stage = 0 → runs .resetNRelease s (fun t => t.aon.resetN = true ∧ t.aon.stage = 1 ∧ t.aon.startTick = s.ticks))) ∧
    (a.pwrgood = false → exec .pwrgoodFall s = .next s ∧
      exec .vaonLow s = .next (s.modAon (fun a => { a with vaon := false })) ∧
      exec .resetNAssert s = .next (s.modAon (fun a => { a with resetN := false }))) ∧
    (∀ ok, exec (.vinRailChange true ok) s = .next (s.modAon (fun a => { a with vins := ok })) ∧
      exec (.vinRailChange false ok) s = .next (s.modAon (fun a => { a with vinn := ok }))) ∧
    (∀ i, s.fwUp = true → s.inProg 10 = some i → i.op = 0x57 →
      (i.going = false → runs .resetChip s (fun t => sameMemory s t ∧ t.aon = a ∧
        t.queue 10 = (s.queue 10).map (fun x => if x.seq = i.seq then { x with going := true, answered := true } else x))) ∧
      (i.going = true → a.pwrgood = true → a.resetN = true → runs .resetChip s (fun t => kept t ∧ t.aon.stage = 1))) ∧
    (∀ (bad : BitVec 10 × BitVec 10 × BitVec 11) seams routers image recOk defects slow differs, a.stuck = true ∨ a.stage = 7 →
      exec .managementCoreStage s = .next s ∧ exec .timerefAbsent s = .next s ∧ exec .railWaitExpiry s = .next s ∧
      exec (.timebaseStage bad seams routers) s = .next s ∧ exec (.managementPortStage image recOk) s = .next s ∧
      exec (.memoryStage defects slow) s = .next s ∧ exec .linkStage s = .next s ∧
      exec (.computeIslandStage differs image) s = .next s) ∧
    (a.stuck = false →
      (a.stage = 1 → runs .managementCoreStage s (fun t => t.aon.secver = s.fuse 9 0 ∧
        (a.testmode = true → t.aon.stuck = true ∧ t.aon.stage = 1) ∧
        (a.testmode = false → t.aon.stage = 2 ∧ t.aon.stageTick = s.ticks ∧
          ∀ i < 10, (t.isl i).present = !a.nvFailed.contains i))) ∧
      (a.stage = 2 →
        (a.edges = false → a.stageTick + 100000000 ≤ s.ticks → runs .timerefAbsent s (fun t => t.aon.stuck = true ∧
          t.aon.attn.getLsbD 3 = true ∧ t.aon.stage = 2)) ∧
        (a.edges = true ∨ s.ticks < a.stageTick + 100000000 → exec .timerefAbsent s = .next s) ∧
        (s.ticks < a.stageTick + 2000000 → exec .railWaitExpiry s = .next s) ∧
        (a.stageTick + 2000000 ≤ s.ticks → runs .railWaitExpiry s (fun t => t.aon = a ∧
          ∀ i < 10, (t.isl i).present = ((s.isl i).present && if i < 5 then a.vinn else a.vins))) ∧
        (∀ (bad : BitVec 10 × BitVec 10 × BitVec 11) seams routers,
          let ring : Aon := { a with ringStops := bad.2.1, ringSegs := bad.2.2 }
          (a.edges = false ∨ (∃ i < 10, (s.isl i).present = true ∧ s.railOk i = false) →
            exec (.timebaseStage bad seams routers) s = .next s) ∧
          (a.edges = true → (∀ i < 10, (s.isl i).present = true → s.railOk i = true) → runs (.timebaseStage bad seams routers) s (fun t =>
            t.aon.stage = 3 ∧ t.aon.ringStops = bad.2.1 ∧ t.aon.ringSegs = bad.2.2 ∧
            (∀ i < 10, (t.isl i).powered = ((s.isl i).present && !bad.1.getLsbD i && (ring.ringWay i).isSome) ∧
              (t.isl i).present = (t.isl i).powered ∧ (t.isl i).mdcode = s.fuse 14 i) ∧
            (∀ p, p = 170 ∨ p = 171 → (s.port p).st = 0 → (t.port p).st = 1))))) ∧
      (a.stage = 3 → ∀ image recOk,
        ((s.port 170).st = 1 ∨ (s.port 171).st = 1 → exec (.managementPortStage image recOk) s = .next s) ∧
        ((s.port 170).st ≠ 1 → (s.port 171).st ≠ 1 →
          (s.mgmtPort = none ∨ s.imageOk image = false → runs (.managementPortStage image recOk) s (fun t =>
            t.aon.stuck = true ∧ t.aon.stage = 3 ∧ t.aon.attn.getLsbD 2 = true)) ∧
          (s.mgmtPort ≠ none → s.imageOk image = true → runs (.managementPortStage image recOk) s (fun t =>
            t.aon.stage = 4 ∧ t.aon.bootph = 1 ∧ t.aon.bcver = Config.fwNumber 1 image ∧
            t.aon.bcDigest = Config.sha384 (Config.fwField 2 image) ∧ t.aon.warm = (recOk && a.nvSaved.isSome))))) ∧
      (a.stage = 4 → ∀ defects slow, runs (.memoryStage defects slow) s (fun t => t.aon.stage = 5 ∧ sameMemory s t ∧
        ∀ p < 160, a.pkgclass.toNat < 2 → (s.port p).st = 0 →
          (t.port p).st = if (t.isl (p / 16)).present then 1 else 0)) ∧
      (a.stage = 5 → ((∃ p < 170, (s.port p).st = 1) → exec .linkStage s = .next s) ∧
        ((∀ p < 170, (s.port p).st ≠ 1) → runs .linkStage s (fun t => t.aon.stage = 6 ∧ sameMemory s t ∧
          ∀ p < 170, (t.port p).full = false ∧ (t.port p).st = (s.port p).st))) ∧
      (a.stage = 6 → ∀ differs image, s.imageOk image = true → runs (.computeIslandStage differs image) s (fun t =>
        t.aon.stage = 7 ∧ t.aon.bootph = 2 ∧ t.aon.fw = 1 ∧ t.aon.fwver = Config.fwNumber 1 image ∧ sameMemory s t ∧
        (∀ n p, a.nvPlan[n]? = some p → n ∉ t.aon.omitted → (t.partn n).pdef = p.word) ∧
        ∀ b < nBlocks,
          let usable := (s.isl (islOfBlk b)).present = true ∧ s.fuse 0 b ≠ 1 ∧ b ∉ differs
          (¬ usable → (t.blk b).fence = (s.blk b).fence) ∧
          (usable → s.badColumns b = [] → (t.blk b).fence = false ∧ (t.blk b).skip = 16#5) ∧
          (∀ c, usable → s.badColumns b = [c] → c ≠ 17 → (t.blk b).fence = false ∧ (t.blk b).skip = BitVec.ofNat 5 c)))) ∧
    (a.stage = 7 ∨ a.testmode = true ∨ s.ticks < a.startTick + 300000000 → exec .startFailed s = .next s) ∧
    (a.stage ≠ 0 → a.stage ≠ 7 → a.testmode = false → a.startTick + 300000000 ≤ s.ticks →
      exec .startFailed s = .next (s.modAon (fun a => { a with attn := a.attn ||| 0x80#8 })))

/-- While firmware runs and the item is in progress: LOAD_IMAGE with a context running is BUSY; one that fails a format or whole-image check is BAD_IMAGE with that check's reason; one no variant of which passes is NO_RESOURCE; any other replaces the partition's image with the variants that pass. UNLOAD_IMAGE removes the image, or is BUSY. LAUNCH without an image is BAD_PARAM 0x41, with a context running BUSY, with a shape of another NDIM BAD_PARAM 0x40, without a port in service NO_RESOURCE 0x28, with no variant that covers the shape NO_BUCKET; otherwise, where a covering variant passes, the smallest such variant runs: the context starts with its shape, the allotments are the variant's sums, every block in service has its cobbles released at the entry address in the launch state, or gated in a piazza, and a piazza's masks come from the shape. The package's memory holds the image. PWRGOOD rising samples the straps, sets package time to 0, not valid, and starts stage 1 with RESET_N high; its fall and VAON low lose power: all but the non-volatile store, fuses and pins takes its reset value. RESET_N low resets the chip and keeps the log and dump stores; its release starts. RESET_CHIP replies first, then resets. VIN_RAIL_CHANGE records its rail. MANAGEMENT_CORE_STAGE ends stage 1, or stops there in test mode. TIMEREF_ABSENT stops it with code 0x3 one second into stage 2 without an edge; RAIL_WAIT_EXPIRY makes a low rail's islands absent after 20 ms; TIMEBASE_STAGE powers the good islands that the ring reaches and trains the management ports. MANAGEMENT_PORT_STAGE stops with code 0x2 without a port or good image, else records boot code and phase. MEMORY_STAGE trains the ports of present islands; LINK_STAGE waits for training; COMPUTE_ISLAND_STAGE writes BLKMAP, sets up every partition of the plan that it does not omit, starts verified firmware and locks. START_FAILED: code 0x7 at 3.0 s. A row of another stage changes nothing. Model choice: log 20, 33, 36, 64, 72, 74, 84. -/
def Obligations.TheStartAndTheLaunch : Prop :=
  imagesAreCheckedLoadedAndLaunched ∧ theStartRunsItsStages

/-- A power reading on a management port joins the window, advances ENERGY by its power over 50 µs and raises no grant by more than one; with no budget yet, or from an alert until it resumes, it moves none; on an island port it is dropped and logged. READINGS_MISSING sets its flag after 200 µs and caps every grant at OP2 after 1 ms. POWER_STATUS_MESSAGE sends one 0xE1 message each 1 ms. SET_BUDGET and SET_OPCAP take effect or are BAD_PARAM; READ_TELEMETRY and READ_AGEING reply. REGULATOR_SETTLED ends a slew. ALERT_N low orders every regulator to OP0 and counts; its release is recorded, and 1 ms later every grant is OP0. A brown-out holds its island and counts; its end releases it; a hold of 10 ms marks the island failed and resets its partition, or makes an island without one absent. A sentinel's undisturbed measurement writes A and M as R485 computes them. STEP_TIME_SAMPLE adds to the current operating point's sums. MARGIN_REPLAN each 24 h raises the margin code where M is below 4.00% and writes a record. THERMAL_TRIP records its reading and trips from 125 °C. Model choice: log 43, 69, 70. Every clause on a command concludes that exec answers a next state. -/
def Obligations.PowerIsMeasuredGrantedAndProtected : Prop :=
  ∀ (s : State),
    let a := s.aon
    let eq := fun (x : Instr) (t : State) => exec x s = .next t
    (∀ pp m ms, s.stagedPp pp → s.fwUp = true → lget [] (s.port (ppPort pp)).inbox 0 = m :: ms →
      (fld m 0 1 ≠ 0xE0 → eq (.powerReading pp) s) ∧
      (fld m 0 1 = 0xE0 → pp < 10 → runs (.powerReading pp) s (fun t => t.aon = a ∧ t.isls = s.isls ∧ sameMemory s t ∧
        t.logSlots.any (fun l => l.kind == 4 && l.id == pp) = true)) ∧
      (fld m 0 1 = 0xE0 → 10 ≤ pp →
        let r := fld m 4 4 + fld m 8 4 + fld m 12 4
        runs (.powerReading pp) s (fun t => t.aon.reads = (r :: a.reads).take 1999 ∧ t.aon.lastRead = some s.ticks ∧
          t.aon.readPort = pp ∧ t.aon.missing = 0 ∧ t.aon.energy = a.energy + BitVec.ofNat 64 ((r + a.energyRem) / 20) ∧
          t.aon.energyRem = (r + a.energyRem) % 20 ∧ sameMemory s t ∧ sameRegisters s t ∧
          (∀ i < 10, (t.isl i).grant ≤ (s.isl i).grant + 1) ∧
          (a.sustained = 0 ∨ a.alertN = false ∨ a.alertRel ≠ none → ∀ i < 10, (t.isl i).grant = (s.isl i).grant)))) ∧
    (∀ t0, s.fwUp = true → a.lastRead = some t0 →
      (s.ticks < t0 + 20000 → eq .readingsMissing s) ∧
      (t0 + 20000 ≤ s.ticks → s.ticks < t0 + 100000 → a.missing = 0 →
        eq .readingsMissing (s.modAon (fun a => { a with missing := 1, statFlags := a.statFlags ||| 2 }))) ∧
      (t0 + 100000 ≤ s.ticks → a.missing < 2 → runs .readingsMissing s (fun t => t.aon.missing = 2 ∧ sameMemory s t ∧
        ∀ i < 10, (t.isl i).grant = min (s.isl i).grant 2))) ∧
    (s.fwUp = true → (s.ticks < a.statTick + 100000 → eq .powerStatusMessage s) ∧
      (a.statTick + 100000 ≤ s.ticks → runs .powerStatusMessage s (fun t => t.aon.statTick = s.ticks ∧ t.aon.statSeq = a.statSeq + 1 ∧
        t.aon.statFlags = 0 ∧ sameMemory s t ∧ ∃ m, m.head? = some 0xE1#8 ∧
          lget [] (t.port (ppPort a.readPort)).vcq 0 = lget [] (s.port (ppPort a.readPort)).vcq 0 ++ [padFlits m]))) ∧
    (∀ i, s.fwUp = true → s.inProg 10 = some i →
      (i.op = 0x70 → let su := i.fld 32 2
        let pk := i.fld 34 2
        eq .setBudget (if 100 ≤ su ∧ su ≤ 720 ∧ su ≤ pk ∧ pk ≤ 900 then
            (s.modAon (fun a => { a with sustained := su, peak := pk, infeasible := false })).finish 10 i {}
          else s.finish 10 i { status := stBadParam })) ∧
      (i.op = 0x72 →
        ((∃ n < 10, i.fld (32 + n) 1 ≠ 0xFF ∧ 32 ≤ i.fld (32 + n) 1) → eq .setOpcap (s.finish 10 i { status := stBadParam })) ∧
        ((∀ n < 10, i.fld (32 + n) 1 = 0xFF ∨ i.fld (32 + n) 1 < 32) → runs .setOpcap s (fun t => sameMemory s t ∧ ∀ n < 10,
          let v := i.fld (32 + n) 1
          let k := t.isl n
          (v = 0xFF → k = s.isl n) ∧
          (v ≠ 0xFF → k.opmax = v % 8 ∧ k.pin = bit v 4 ∧ k.waitctl.getLsbD 31 = !bit v 3 ∧
            k.grant = min (s.isl n).grant (min (v % 8) (s.isl n).cap))))) ∧
      (i.op = 0x71 → ∃ d, eq .readTelemetry (s.finish 10 i { data := d })) ∧
      (i.op = 0x73 → let f := i.fld 32 2
        let n := i.fld 34 2
        (511 < f ∨ n = 0 ∨ 60 < n → eq .readAgeing (s.finish 10 i { status := stBadParam })) ∧
        (f ≤ 511 → 1 ≤ n → n ≤ 60 → (∀ j < n, lget [] a.nvAge ((f + j) % 512) ≠ []) → eq .readAgeing
          (s.finish 10 i { data := (List.range n).flatMap (fun j => lget [] a.nvAge ((f + j) % 512)) })))) ∧
    (∀ i, i < 10 →
      let k := s.isl i
      eq (.regulatorSettled i) (if k.slew then s.setIsl i { k with slew := false, quiet := s.ticks } else s) ∧
      (k.brown = true ∨ k.powered = false → eq (.brownoutHoldStart i) s) ∧
      (k.brown = false → k.powered = true → runs (.brownoutHoldStart i) s (fun t =>
        t.isl i = { k with brown := true, brownTick := s.ticks, droopcnt := satInc k.droopcnt } ∧ sameMemory s t ∧ sameRegisters s t)) ∧
      eq (.brownoutHoldEnd i) (if k.brown then s.setIsl i { k with brown := false, quiet := s.ticks } else s) ∧
      (k.brown = false ∨ s.ticks < k.brownTick + 1000000 → eq (.brownoutRegulatorFail i) s) ∧
      (k.brown = true → k.brownTick + 1000000 ≤ s.ticks → s.fwUp = true → runs (.brownoutRegulatorFail i) s (fun t =>
        i ∈ t.aon.nvFailed ∧ sameMemory s t ∧
        (k.part = 0xFF → (t.isl i).present = false ∧ (t.isl i).powered = false) ∧
        (k.part ≠ 0xFF → (∀ x ∈ a.acts, x.part ≠ k.part) → ∃ x ∈ t.aon.acts, x.kind = .reset ∧ x.part = k.part ∧ x.level = 3))) ∧
      (∀ j data matched test, j < 4 → 0 < data → matched ≤ data → data ≤ test →
        (k.slew = true ∨ k.brown = true ∨ a.alertN = false ∨ s.ticks < k.quiet + 10000 →
          eq (.sentinelMeasurement i j data matched test) s) ∧
        (k.slew = false → k.brown = false → a.alertN = true → k.quiet + 10000 ≤ s.ticks →
          let ageing := BitVec.ofNat 16 (min 0xFFFF ((test - data) * 10000 / data))
          let margin := BitVec.ofNat 16 ((data - matched) * 10000 / data)
          eq (.sentinelMeasurement i j data matched test) (s.setIsl i { k with sent := lset k.sent j (ageing ++ margin) }))) ∧
      (∀ n, 0 < n → k.powered = true → k.slew = false → k.brown = false → a.alertN = true → k.quiet + 5000 ≤ s.ticks →
        runs (.stepTimeSample i n) s (fun t => sameMemory s t ∧ let e := lget (0, 0) k.slow k.cur
          lget (0, 0) (t.isl i).slow k.cur = (e.1 + 1, e.2 + n) ∧ ∀ o, o ≠ k.cur → lget (0, 0) (t.isl i).slow o = lget (0, 0) k.slow o))) ∧
    (a.alertN = true → runs .alertNAssert s (fun t => t.aon.alertN = false ∧ t.aon.alertcnt = satInc a.alertcnt ∧
      t.aon.alertAt = s.pktime ∧ sameMemory s t ∧ ∀ i < 10, (t.isl i).cur = 0 ∧ (t.isl i).grant = (s.isl i).grant)) ∧
    (a.alertN = false → eq .alertNAssert s ∧ runs .alertNRelease s (fun t => t.aon.alertN = true ∧ t.aon.alertRel = some s.ticks ∧
      sameMemory s t ∧ t.logSlots.any (fun l => l.kind == 0 && l.id == 0) = true ∧
      ∀ i < 10, (t.isl i).cur = (s.isl i).cur ∧ (t.isl i).grant = (s.isl i).grant)) ∧
    (∀ t0, s.fwUp = true → a.alertRel = some t0 → (s.ticks < t0 + 100000 → eq .alertReleaseDelay s) ∧
      (t0 + 100000 ≤ s.ticks → runs .alertReleaseDelay s (fun t => t.aon.alertRel = none ∧ sameMemory s t ∧
        ∀ i < 10, (t.isl i).grant = 0))) ∧
    (s.ticks < a.replanTick + 8640000000000 ∨ a.alertN = false ∨ a.alertRel ≠ none → eq .marginReplan s) ∧
    (s.fwUp = true → a.replanTick + 8640000000000 ≤ s.ticks → a.alertN = true → a.alertRel = none → runs .marginReplan s (fun t =>
      t.aon.replanTick = s.ticks ∧ t.aon.ageSeq = a.ageSeq + 1 ∧ lget [] t.aon.nvAge (a.ageSeq % 512) = t.aon.ageLast ∧ sameMemory s t ∧
      ∀ i < 10, (s.isl i).present = true → let k := s.isl i
        (t.isl i).mdcode = if k.margin < 400 ∧ k.mdcode < 31 then k.mdcode + 1 else k.mdcode)) ∧
    (∀ sensor temp, sensor ≤ 10 → a.vaon = true → runs (.thermalTrip sensor temp) s (fun t => t.aon.tnow = min temp 255 ∧
      t.aon.hotsrc = sensor ∧ t.aon.maxt = max a.maxt (min temp 255) ∧ sameMemory s t ∧
      (temp < 125 → t.aon.thermTrip = a.thermTrip ∧ t.isls = s.isls) ∧
      (125 ≤ temp → t.aon.trip = true ∧ t.aon.thermTrip = true ∧ ∀ i < 10, (t.isl i).cur = 0)))

/-- KICK restores REMAIN. MGMT_WATCHDOG_EXPIRY stops firmware with code 0x5, or holds it with 0x6 the second time within 10 s; MGMT_RESTART_DONE runs it again with every queue empty. ATTN_FRAME sends an active code once 1 ms has passed. MGMT_UNREACHABLE dumps every OPEN partition and sets code 0x1. ATTEST and GET_CERT reply. FW_STAGE stores its bytes at OFFSET or is BAD_PARAM; FW_ACTIVATE waits for the items in progress, then takes a good image or keeps the old one. READ_DUMP returns the bytes of its range; COPY_DUMP sets the copy region; DUMP_RECORD_COPIED copies the partition's next record. DEBUG_CHALLENGE replies a nonce or is DENIED; DEBUG_UNLOCK consumes it, unlocks on a good signature, and locks out for 60 s at the third failure; DEBUG_LOCK locks and resumes; DEBUG_NONCE_EXPIRY and DEBUG_LOCKOUT_END end theirs when due. With debug locked a debug command is DENIED; unlocked, HALT and RESUME act on the cores of their scope alone, READ_CORE and READ_SYNC change nothing, and TRACE_CTL stops or starts the trace. Model choice: log 20, 33, 67, 71, 73, 91. Every clause on a command concludes that exec answers a next state. -/
def Obligations.TheManagementCoreRestartsAttestsUpdatesAndDumps : Prop :=
  ∀ (s : State), canonFrom [] 0 s.queues = true →
    let a := s.aon
    let eq := fun (x : Instr) (t : State) => exec x s = .next t
    eq .kick (s.modAon (fun a => { a with remain := 100000 })) ∧
    (∀ l, (l = false ∧ a.remain ≠ 0) ∨ a.fw = 0 ∨ a.fw = 3 → eq (.mgmtWatchdogExpiry l) s) ∧
    (∀ l, l = true ∨ a.remain = 0 → a.fw = 1 ∨ a.fw = 2 → runs (.mgmtWatchdogExpiry l) s (fun t => t.aon.remain = 100000 ∧
      t.aon.lastRestart = some s.ticks ∧ sameMemory s t ∧ sameRegisters s t ∧
      ((∀ r, a.lastRestart = some r → r + 1000000000 ≤ s.ticks) → t.aon.fw = 2 ∧ t.aon.attn.getLsbD 5 = true) ∧
      (∀ r, a.lastRestart = some r → s.ticks < r + 1000000000 → t.aon.fw = 3 ∧ t.aon.attn.getLsbD 6 = true))) ∧
    (a.fw ≠ 2 → eq .mgmtRestartDone s) ∧
    (a.fw = 2 → runs .mgmtRestartDone s (fun t => t.aon.fw = 1 ∧ t.aon.remain = 100000 ∧ (∀ q < 11, t.queue q = []) ∧ sameMemory s t ∧
      sameRegisters s t)) ∧
    (a.attn = 0 ∨ a.testmode = true ∨ s.ticks < a.attnSent + 100000 → eq .attnFrame s) ∧
    (a.attn ≠ 0 → a.testmode = false → a.vaon = true → a.attnSent + 100000 ≤ s.ticks → runs .attnFrame s (fun t =>
      a.attn.getLsbD t.aon.attnLast = true ∧ t.aon.attnSent = s.ticks ∧ sameMemory s t ∧
      (a.attnLast ≠ t.aon.attnLast ∨ ∀ n < 8, a.attn.getLsbD n = true → n = a.attnLast))) ∧
    (a.unreach = none → eq .mgmtUnreachable s) ∧
    (∀ t0 tm, a.unreach = some (t0, tm) → a.attn.getLsbD 1 = false →
      (s.fwUp = true → runs .mgmtUnreachable s (fun t => t.aon.attn.getLsbD 1 = true ∧ sameMemory s t ∧
        ∀ p < 10, (s.partn p).isOpen = true → (s.partn p).dseq < 2 ^ 56 →
          ∃ r ∈ t.aon.dumps, r.part = p ∧ r.kind = 1 ∧ r.seq = (s.partn p).dseq)) ∧
      (a.fw = 2 → eq .mgmtUnreachable (if t0 + 2000000 ≤ s.ticks then s.modAon (fun a => { a with attn := a.attn ||| 2#8 }) else s))) ∧
    (∀ p, p < 10 →
      (∀ n t0, (s.partn p).nonce = some (n, t0) → eq (.debugNonceExpiry p)
        (s.modPart p (fun k => if t0 + 1000000000 < s.ticks then { k with nonce := none } else k))) ∧
      (∀ t0, (s.partn p).dbgUntil = some t0 → eq (.debugLockoutEnd p)
        (s.modPart p (fun k => if t0 ≤ s.ticks then { k with dbgUntil := none } else k))) ∧
      ((s.partn p).copyBase = none ∨ s.mgmtPort = none → eq (.dumpRecordCopied p) s) ∧
      (let due := fun (r : DumpRec) => r ∈ a.dumps ++ s.traceRec ∧ r.part = p ∧ (s.partn p).copySeq ≤ r.seq
       (s.partn p).copyBase ≠ none → s.mgmtPort ≠ none → (∃ r, due r) →
       (∀ r, due r → (s.partn p).copyPos + r.bytes.length ≤ 2 ^ 23) → runs (.dumpRecordCopied p) s (fun t => sameMemory s t ∧
         ∃ r, due r ∧ (∀ x, due x → r.seq ≤ x.seq) ∧ (r ∈ a.dumps → r.markCopied ∈ t.aon.dumps) ∧
           (r ∉ a.dumps → t.trace.copied = true) ∧ (t.partn p).copySeq = r.seq + 1 ∧
           (t.partn p).copyPos = (s.partn p).copyPos + r.bytes.length))) ∧
    (∀ i, s.fwUp = true → s.inProg 10 = some i →
      let ends := fun (x : Instr) (t : State) (r : Reply) => exec x s = .next (t.finish 10 i r)
      let p := i.part
      let k := s.partn p
      (i.op = 0x90 → ∃ d, ends .attest s { data := d }) ∧
      (i.op = 0x91 → (1 < i.fld 32 1 → ends .getCert s { status := stBadParam }) ∧
        (i.fld 32 1 ≤ 1 → ∃ d, ends .getCert s { data := d })) ∧
      (i.op = 0x92 → let o := i.fld 32 4
        let d := i.bytes.drop 64
        (o % 32 ≠ 0 ∨ d.length % 32 ≠ 0 ∨ 4194304 < o + d.length → ends .fwStage s { status := stBadParam }) ∧
        (64 ≤ i.bytes.length → ((i.bytes.take 64).drop 36).all (· == 0) = true → o % 32 = 0 → d.length % 32 = 0 →
          o + d.length ≤ 4194304 → runs .fwStage s (fun t => sameMemory s t ∧ t.aon.fwver = a.fwver ∧
            ∀ j, lget 0 t.aon.nvStage j = if o ≤ j ∧ j < o + d.length then d.getD (j - o) 0
              else if o = 0 then 0 else lget 0 a.nvStage j))) ∧
      (i.op = 0x93 → let d := stagedImage a.nvStage
        (i.going = false → eq .fwActivate (s.setQueue 10 ((s.queue 10).map (fun x => if x.seq = i.seq then { x with going := true } else x)))) ∧
        (i.going = true → (∃ q < 10, s.inProg q ≠ none) → eq .fwActivate s) ∧
        (i.going = true → (∀ q < 10, s.inProg q = none) → runs .fwActivate s (fun t => sameMemory s t ∧
          t.queue 10 = (s.queue 10).filter (fun x => x.seq != i.seq) ∧
          (s.imageOk d = true → t.aon.fwver = Config.fwNumber 1 d ∧ t.aon.fwDigest = Config.sha384 (Config.fwField 2 d)) ∧
          (s.imageOk d = false → t.aon = a)))) ∧
      (i.op = 0x61 → (8160 < i.fld 36 2 → ends .readDump s { status := stBadParam }) ∧
        (i.fld 36 2 ≤ 8160 → ends .readDump s {
          data := (((s.readable i).flatMap (·.bytes)).drop (i.fld 32 4)).take (i.fld 36 2) })) ∧
      (i.op = 0x62 → (2 ^ 48 ≤ i.fld 32 8 → ends .copyDump s { status := stBadParam }) ∧
        (i.fld 32 8 < 2 ^ 48 → a.dumps = [] → s.traceRec = [] → ends .copyDump
          (s.modPart p (fun k => { k with copyBase := some (i.fld 32 8), copyPos := 0, copySeq := 0 })) {}) ∧
        (i.fld 32 8 < 2 ^ 48 → runs .copyDump s (fun t => sameMemory s t ∧ t.queue 10 = (s.queue 10).filter (fun x => x.seq != i.seq)))) ∧
      (i.op = 0x94 → (k.dbgUntil ≠ none → ends .debugChallenge s { status := stDenied }) ∧
        (k.dbgUntil = none → runs .debugChallenge s (fun t => sameMemory s t ∧ ∃ n, n.length = 48 ∧ (t.partn p).nonce = some (n, s.ticks)))) ∧
      (i.op = 0x95 → let ok := s.unlockOk p ((i.bytes.drop 32).take 96)
        runs .debugUnlock s (fun t => sameMemory s t ∧ (t.partn p).nonce = none ∧
          (ok = true → (t.partn p).debug = true ∧ (t.partn p).dbgFails = 0) ∧
          (ok = false → (t.partn p).debug = k.debug ∧
            (k.dbgFails = 2 → (t.partn p).dbgUntil = some (s.ticks + 6000000000) ∧ (t.partn p).dbgFails = 0) ∧
            (k.dbgFails < 2 → (t.partn p).dbgUntil = k.dbgUntil ∧ (t.partn p).dbgFails = k.dbgFails + 1)))) ∧
      (i.op = 0x96 → runs .debugLock s (fun t => (t.partn p).debug = false ∧ sameMemory s t ∧
        ∀ c, (s.inPart p (blkOf c) = true → (t.cob c).halted = false) ∧ (s.inPart p (blkOf c) = false → t.cob c = s.cob c))) ∧
      (∀ x, (x, i.op) ∈ [(Instr.halt, 0xF0), (.resume, 0xF1), (.readCore, 0xF2), (.readSync, 0xF3), (.traceCtl, 0xF4)] →
        k.debug = false → runs x s (fun t => sameMemory s t ∧ t.cobs = s.cobs ∧ t.aon = a ∧
          t.logSlots.any (fun l => l.kind == 4 && l.id == i.port) = true)) ∧
      (k.debug = true →
        (∀ x, (x, i.op) ∈ [(Instr.halt, 0xF0), (.resume, 0xF1)] →
          (s.scope i = none → ends x s { status := stBadParam }) ∧
          (∀ cs, s.scope i = some cs → (s.scopeReset i cs = true → ends x s { status := stFenced }) ∧
            (s.scopeReset i cs = false → runs x s (fun t => sameMemory s t ∧
              ∀ c, (c ∉ cs → t.cob c = s.cob c) ∧ (c ∈ cs → (t.cob c).halted = (i.op == 0xF0) ∧ (t.cob c).ints = (s.cob c).ints ∧
                (t.cob c).fps = (s.cob c).fps ∧ (t.cob c).pc = (s.cob c).pc))))) ∧
        (i.op = 0xF2 → (s.inPart p (i.fld 32 2) = false → ends .readCore s { status := stBadParam }) ∧
          (s.inPart p (i.fld 32 2) = true → ∃ d, ends .readCore s { data := d })) ∧
        (i.op = 0xF3 → let o := i.fld 32 2
          (s.inPart p (o / 16) = false → ends .readSync s { status := stBadParam }) ∧
          (s.inPart p (o / 16) = true → ends .readSync s {
            data := toBytes 4 (syncValue (lget 0 (s.blk (o / 16)).sync (o % 16))) })) ∧
        (i.op = 0xF4 →
          (i.fld 32 1 = 3 → ∃ d, ends .traceCtl s { data := d }) ∧
          (3 < i.fld 32 1 → ends .traceCtl s { status := stBadParam }) ∧
          (i.fld 32 1 = 0 → s.trace.part = some p → runs .traceCtl s (fun t => t.trace = { s.trace with running := false } ∧ t.cobs = s.cobs)) ∧
          (i.fld 32 1 = 1 ∨ i.fld 32 1 = 2 → s.trace.running = true → s.trace.part ≠ some p → ends .traceCtl s { status := stBusy }) ∧
          (i.fld 32 1 = 1 ∨ i.fld 32 1 = 2 → s.trace.running = false ∨ s.trace.part = some p → k.dseq < 2 ^ 56 →
            runs .traceCtl s (fun t => t.trace.running = true ∧ t.trace.part = some p ∧ t.trace.ents = [] ∧
              t.trace.wrap = (i.fld 32 1 == 2) ∧ t.trace.seq = k.dseq ∧ (t.partn p).dseq = k.dseq + 1 ∧ t.cobs = s.cobs)))))

/-- BYPASS and IDCODE shift their captured bits and TDI through; IDCODE captures 0x1C81_06B7. SAMPLE_PRELOAD loads the boundary register; EXTEST, WRAPPER_INSTRUCTIONS and NETWORK_ACCESS_1687 do so only in force and otherwise act as BYPASS. FUSEPROG outside test mode, after SHIP or the end of boot phase 0, or without VFUSE fails; a programmed field is a lock violation with status LOCKED; a field takes its value once, the UDS a free one. SELFTEST_RUN with a parameter out of range is BAD_PARAM, waits while a test runs, and replies each selected island's result; SELFTEST_STATUS replies results and times. SELFTEST_SCHEDULE starts nothing while a test runs, and else an idle island whose test was put off, its blocks fenced. SELFTEST_CHECKPOINT goes to the next segment, or ends the test with the island's memories 0 and its fences lifted but for defective blocks, which it records; a test that a command waits for is deferred unless its last segment ends; one whose SELFTEST_RUN has been undone is dropped. Model choice: log 1, 73. Every clause on a command concludes that exec answers a next state. -/
def Obligations.TestPortFusesAndSelfTest : Prop :=
  ∀ (s : State),
    let a := s.aon
    let eq := fun (x : Instr) (t : State) => exec x s = .next t
    (∀ tdi : List Bool,
      let shifts := fun (x : Instr) (ir : BitVec 8) (cap : List Bool) => runs x s (fun t => t.aon.tapIr = ir ∧
        t.aon.tapOut = (cap ++ tdi).take tdi.length ∧ t.aon.tapDr = (cap ++ tdi).drop tdi.length ∧ t.aon.bsr = a.bsr ∧
        sameMemory s t ∧ sameRegisters s t)
      let loads := fun (x : Instr) (ir : BitVec 8) => runs x s (fun t => t.aon.tapIr = ir ∧ t.aon.tapOut.length = tdi.length ∧
        t.aon.tapDr = tdi ∧ (ir = 2#8 ∨ ir = 3#8 → t.aon.bsr = tdi) ∧ sameMemory s t ∧ sameRegisters s t)
      shifts (.bypass tdi) 0xFF#8 [false] ∧
      shifts (.idcode tdi) 1#8 ((List.range 32).map (fun n => (0x1C8106B7#32).getLsbD n)) ∧
      loads (.samplePreload tdi) 2#8 ∧
      (a.testmode = true → loads (.extest tdi) 3#8 ∧ loads (.wrapperInstructions tdi) 0x10#8 ∧
        ∀ seg, (s.shipped = false ∨ seg < 2 → loads (.networkAccess1687 seg tdi) 0x20#8) ∧
          (s.shipped = true → 2 ≤ seg → shifts (.networkAccess1687 seg tdi) 0xFF#8 [false])) ∧
      (a.testmode = false → shifts (.extest tdi) 0xFF#8 [false] ∧ shifts (.wrapperInstructions tdi) 0xFF#8 [false] ∧
        ∀ seg, shifts (.networkAccess1687 seg tdi) 0xFF#8 [false])) ∧
    (∀ f n v vf, n < 65536 →
      let may := a.testmode = true ∧ s.shipped = false ∧ a.bootph = 0 ∧ vf = true
      let blank := ∀ e ∈ s.fuses, e.1 ≠ f * 65536 + n
      (¬ may → runs (.fuseprog f n v vf) s (fun t => t.fuses = s.fuses ∧ t.aon.fuseFail = true)) ∧
      (may → ¬ blank → runs (.fuseprog f n v vf) s (fun t => t.fuses = s.fuses ∧ t.aon.lockviol = satInc a.lockviol ∧
        t.aon.wstat = stLocked)) ∧
      (may → blank → runs (.fuseprog f n v vf) s (fun t => (f ≠ 7 → t.fuse f n = v) ∧ sameMemory s t ∧
        ∀ g m, m < 65536 → (g, m) ≠ (f, n) → t.fuse g m = s.fuse g m))) ∧
    (∀ i, s.fwUp = true → s.inProg 10 = some i →
      let sel := i.fld 32 2
      let set := i.fld 34 2
      (i.op = 0x80 →
        (1024 ≤ sel ∨ 4 ≤ set → eq .selftestRun (s.finish 10 i { status := stBadParam })) ∧
        (sel < 1024 → set < 4 →
          (i.going = false → runs .selftestRun s (fun t => sameMemory s t ∧ ∀ n < 10,
            (bit sel n = false → t.isl n = s.isl n) ∧
            (bit sel n = true → set ≠ 0 → (s.idleIsl n = true → (t.isl n).stRes = 5) ∧
              (s.idleIsl n = false → (t.isl n).stRes = 2 ∧ (t.isl n).stQueued = set)))) ∧
          (i.going = true → s.testRuns = true → eq .selftestRun s) ∧
          (i.going = true → s.testRuns = false → (∀ n < 10, bit sel n = true → (s.isl n).stRes ≠ 5) → ∃ st,
            let results := (List.range 10).map (fun n => if bit sel n then (s.isl n).resByte else 4#8)
            eq .selftestRun (s.finish 10 i { status := st, data := results }) ∧
            (st = stDeferred ↔ ∃ n < 10, bit sel n = true ∧ (s.isl n).stRes = 2)))) ∧
      (i.op = 0x81 →
        let results := (List.range 10).map (fun n => (s.isl n).resByte)
        let times := (List.range 10).flatMap (fun n => toBytes 8 (s.isl n).stTime.toNat)
        eq .selftestStatus (s.finish 10 i { data := results ++ times }))) ∧
    (s.testRuns = true → eq .selftestSchedule s) ∧
    (s.fwUp = true → s.testRuns = false → (∃ n < 10, (s.isl n).stQueued ≠ 0 ∧ s.idleIsl n = true) → runs .selftestSchedule s (fun t =>
      sameMemory s t ∧ ∃ n < 10, (s.isl n).stQueued ≠ 0 ∧ s.idleIsl n = true ∧ (t.isl n).stRun = some ((s.isl n).stQueued, 0) ∧
        (t.isl n).stQueued = 0 ∧ (t.isl n).powered = true ∧ ∀ b < nBlocks, islOfBlk b = n → (t.blk b).rstFence = true)) ∧
    (∀ i defects, i < 10 →
      ((s.isl i).stRun = none ∨ (s.isl i).brown = true → eq (.selftestCheckpoint i defects) s) ∧
      (∀ set n, (s.isl i).stRun = some (set, n) → (s.isl i).brown = false →
        let mine := fun (e : Nat × Nat) => e ∈ defects ∧ e.1 < nBlocks ∧ islOfBlk e.1 = i
        let recorded := fun (t : State) => ∀ e, mine e → e ∈ t.aon.repairs
        let more := (s.isl i).stDrop = false ∧ n + 1 < segments set
        (more → s.wanted i = false → runs (.selftestCheckpoint i defects) s (fun t =>
          recorded t ∧ (t.isl i).stRun = some (set, n + 1) ∧ sameMemory s t ∧ ∀ e, mine e → (t.blk e.1).rstFence = true)) ∧
        (more → s.wanted i = true → runs (.selftestCheckpoint i defects) s (fun t =>
          (t.isl i).stRes = 3 ∧ (t.isl i).stQueued = set ∧ (t.isl i).stRun = none)) ∧
        ((s.isl i).stDrop = true → runs (.selftestCheckpoint i defects) s (fun t =>
          (t.isl i).stRes = 3 ∧ (t.isl i).stDrop = false ∧ (t.isl i).stQueued = (s.isl i).stQueued)) ∧
        ((s.isl i).stDrop = false → segments set ≤ n + 1 → runs (.selftestCheckpoint i defects) s (fun t =>
          (t.isl i).stLast = some s.ticks ∧
          (t.isl i).stRes = if (s.isl i).stBad = true ∨ ∃ e ∈ defects, mine e then 1 else 0)) ∧
        (¬ more ∨ s.wanted i = true → runs (.selftestCheckpoint i defects) s (fun t =>
          recorded t ∧ (t.isl i).stRun = none ∧
          (∀ x, lget 0 t.mem x = if islOfBlk (blkOfFlat x) = i then 0 else lget 0 s.mem x) ∧
          (∀ b < nBlocks, islOfBlk b = i → (t.blk b).rstFence = true → ∃ c, (b, c) ∈ t.aon.repairs) ∧
          ∀ e, mine e → (t.blk e.1).rstFence = true))))

/-- From PWRGOOD on, an edge of TIMEREF, and of the ring oscillator while none is counted, advances package time and every timeout by one tick. TIMEREF_LOSS sets APPROX and counts. The first TIME_MESSAGE sets package time; a later one jumps forward, or holds the count; APPROX clears while edges are counted. PKTIME_LO_READ, STEPCNT_LO_READ and ENERGY_LO_READ latch the upper halves. LOG_RECORD_WRITE writes one slot as the record with the next SEQ, a full ring losing its oldest; LOG_COPY_ACK marks the first record sent as copied; CNT_WRAP carries into the extension; CNT_SAT logs the oldest saturation. RC_REGISTER_READ returns WVADDR and clears it. A program's REGISTER_WRITE is answered and never changes BLKMAP or PARTRECT; in BOOTPH 2 a write of PARTDEF, PARTRECT, WPOLICY, ISLOWN, SRCFG, BLKMAP or BOOTPH returns LOCKED and changes only LOCKVIOL and the log; before it, each takes effect, and BOOTPH only advances. Model choice: log 41, 42, 68, 75, 89, 90. Every clause on a command concludes that exec answers a next state. -/
def Obligations.TimeLogsCountersAndLockedRegisters : Prop :=
  ∀ (s : State),
    let a := s.aon
    let eq := fun (x : Instr) (t : State) => exec x s = .next t
    let ticked := fun (t : State) => t.ticks = s.ticks + 1 ∧ (a.holdTo = none → t.pktime = s.pktime + 1 ∧ t.pkPrev = s.pktime) ∧
      (∀ v, a.holdTo = some v → t.pktime = s.pktime) ∧ sameMemory s t ∧ sameRegisters s t
    (a.pwrgood = false → eq .timerefEdge s ∧ eq .ringOscillatorTick s ∧ eq .timerefLoss s ∧ ∀ v, eq (.timeMessage v) s) ∧
    (a.pwrgood = true → runs .timerefEdge s (fun t => ticked t ∧ t.aon.counting = true ∧ t.aon.edges = true)) ∧
    (a.counting = true → eq .ringOscillatorTick s) ∧ (a.pwrgood = true → a.counting = false → runs .ringOscillatorTick s ticked) ∧
    (a.counting = false → eq .timerefLoss s) ∧
    (a.pwrgood = true → a.counting = true → runs .timerefLoss s (fun t => t.approx = true ∧ t.aon.counting = false ∧ t.aon.tbLost = true ∧
      t.aon.lostcnt = satInc a.lostcnt ∧ t.pktime = s.pktime ∧ sameMemory s t)) ∧
    (∀ v, a.pwrgood = true → runs (.timeMessage v) s (fun t => t.approx = (s.approx && !a.counting) ∧ sameMemory s t ∧ sameRegisters s t ∧
      (a.tbValid = false ∨ s.pktime ≤ v → t.pktime = v ∧ t.aon.tbValid = true ∧ t.aon.holdTo = none ∧
        ∀ i < 10, (t.isl i).caughtUp = false) ∧
      (a.tbValid = true → v < s.pktime → t.pktime = s.pktime ∧ t.aon.holdTo = some v))) ∧
    eq .pktimeLoRead (s.modAon (fun a => { a with pkHi := BitVec.ofNat 32 (s.pktime.toNat / 2 ^ 32) })) ∧
    eq .energyLoRead (s.modAon (fun a => { a with energyHi := BitVec.ofNat 32 (a.energy.toNat / 2 ^ 32) })) ∧
    (∀ i ev, i < 10 → ev < 8 →
      let v := (s.isl i).counter ev
      runs (.stepcntLoRead i ev) s (fun t => lget 0 (t.isl i).cntHi ev = BitVec.ofNat 32 (v.toNat / 2 ^ 32) ∧ (t.isl i).counter ev = v) ∧
      (v.toNat % 2 ^ 48 ≠ 2 ^ 48 - 1 → eq (.cntWrap i ev) s) ∧
      (v.toNat % 2 ^ 48 = 2 ^ 48 - 1 → runs (.cntWrap i ev) s (fun t => sameMemory s t ∧
        (t.isl i).counter ev = (if v = BitVec.allOnes 64 then v else v + 1) ∧
        (v = BitVec.allOnes 64 ∧ ev ∈ (s.isl i).cntSat ∨ t.logSlots.any (fun l => l.kind == 1 && l.id == i) = true)))) ∧
    (s.satDue = [] → eq .cntSat s) ∧
    (∀ k id n rest, s.satDue = (k, id, n) :: rest → runs .cntSat s (fun t => t.satDue = rest ∧ sameMemory s t ∧
      t.logSlots.any (fun l => l.kind == k && l.id == id) = true)) ∧
    (s.logSlots = [] → eq .logRecordWrite s) ∧
    (s.logSlots ≠ [] → runs .logRecordWrite s (fun t => t.aon.logseq = a.logseq + 1 ∧ sameMemory s t ∧
      ∃ l ∈ s.logSlots, t.logSlots = s.logSlots.erase l ∧ (∀ x ∈ s.logSlots, x.time = l.time → l.kind ≤ x.kind) ∧
        (s.mgmtPort = none → t.aon.log = (if 4096 ≤ a.log.length then a.log.drop 1 else a.log) ++ [l.record a.logseq]) ∧
        (a.log.length < 4096 → t.aon.loglost = a.loglost) ∧
        (∀ r rest, a.log = r :: rest → r.copied = false → 4096 ≤ a.log.length → t.aon.loglost = satInc a.loglost))) ∧
    (s.mgmtPort = none → eq .logCopyAck (s.modAon (fun a => { a with log := ackLog a.log }))) ∧
    (∀ r rest, a.log = r :: rest → r.sent = true → r.copied = false → runs .logCopyAck s (fun t => sameMemory s t ∧
      t.aon.log.head? = some { r with copied := true })) ∧
    (∀ b x rest, s.staged b → (s.blk b).ctlIn = x :: rest →
      (x.kind = .rd → x.off = 0x1204 → runs (.rcRegisterRead b) s (fun t => (t.blk b).wvaddr = 0 ∧ sameMemory s t ∧
        (x.remote = true → ∃ pk ans, (t.blk b).niq = (s.blk b).niq ++ [pk] ∧ pk.pay = .ans ans ∧ pk.dst = x.sblk ∧ ans.status = 0 ∧
          ans.data = toBytes x.size ((s.ctlRead b x.off).getD 0)))) ∧
      (x.kind = .wr → ownRow s b x = false → runs (.registerWrite false 0 b 0 0) s (fun t => (t.blk b).ctlIn = rest ∧
        (∀ n, (t.blk n).fence = (s.blk n).fence ∧ (t.blk n).skip = (s.blk n).skip ∧ (t.blk n).partrect = (s.blk n).partrect) ∧
        t.parts = s.parts ∧ sameMemory s t ∧ sameRegisters s t))) ∧
    (∀ (v : BitVec 32),
      let refused := fun (x : Instr) => runs x s (fun t => t.aon.wstat = stLocked ∧ t.aon.lockviol = satInc a.lockviol ∧ t.aon.bootph = a.bootph ∧
        t.aon.srcfg = a.srcfg ∧ t.parts = s.parts ∧ t.isls = s.isls ∧ t.blks = s.blks ∧ sameMemory s t ∧ t.cobs = s.cobs)
      (s.locked = true → refused (.bootphWrite v) ∧ refused (.registerWrite true 2 0 0x140 v) ∧
        (∀ p < 10, refused (.registerWrite true 2 0 (0x100 + 4 * p) v)) ∧
        (∀ i < 10, ringFree s 15 i → refused (.registerWrite true 1 i 0x800 v) ∧
          refused (.registerWrite true 1 i 0x840 v)) ∧
        (∀ b, s.staged b → ringFree s 15 (islOfBlk b) → refused (.blkmapWrite b v) ∧ refused (.registerWrite true 0 b 0x108 v))) ∧
      (s.locked = false →
        runs (.bootphWrite v) s (fun t => sameMemory s t ∧ t.aon.wstat = stOk ∧
          t.aon.bootph = if a.bootph.toNat < v.toNat % 4 ∧ v.toNat % 4 ≤ 2 then BitVec.ofNat 2 (v.toNat % 4) else a.bootph) ∧
        eq (.registerWrite true 2 0 0x140 v) (s.modAon (fun a => { a with srcfg := v &&& 0xF#32, wstat := stOk })) ∧
        (∀ p < 10, eq (.registerWrite true 2 0 (0x100 + 4 * p) v) ((s.modPart p (fun k =>
          { k with pdef := v &&& 0xE778FFFF#32 })).modAon (fun a => { a with wstat := stOk }))) ∧
        let sent := fun (x : Instr) (st : Nat) (t : State) =>
          eq x (t.modAon (fun a => { a with ringq := [], ringLast := 15, wstat := st }))
        (∀ i < 10, ringFree s 15 i →
          sent (.registerWrite true 1 i 0x840 v) stOk (s.modIsl i (fun k => { k with own := v &&& 0x8F00FFFF#32 })) ∧
          sent (.registerWrite true 1 i 0x800 v) stOk (s.modIsl i (fun k => { k with wpolicy := v &&& 0x1FFF#32 }))) ∧
        (∀ b, s.staged b → ringFree s 15 (islOfBlk b) →
          sent (.registerWrite true 0 b 0x108 v) stOk (s.modBlk b (fun k => { k with partrect := v &&& 0x9F1F0F0F#32 })) ∧
          (16 < v.toNat % 32 → sent (.blkmapWrite b v) stBadParam s) ∧
          (v.toNat % 32 ≤ 16 → sent (.blkmapWrite b v) stOk (s.modBlk b (fun k => { k with
            fence := v.getLsbD 8, skip := v.setWidth 5 })))))) 

end
end

