-- ==== Sys2Proof/Laws/Issue.lean ====
section
/-!
SUPPORT. Issue: what an instruction does when its cobble is ready for it.
-/

namespace Sys2Proof.Machine

/-- A cobble that may issue holds nothing, so a WAIT's end changes nothing. -/
theorem settleWait_of_canIssue {s : State} {c : Nat} (h : s.canIssue c = true) : s.settleWait c = s := by
  have : (s.cob c).hold = .none := by
    simp only [State.canIssue, State.mayIssue, Bool.and_eq_true, beq_iff_eq] at h; exact h.1.1.2
  simp [State.settleWait, this]

/-- What an instruction does at a core whose next instruction reaches issue: its own attempt, but with an interrupt due at the
boundary only where that attempt is a trap. -/
theorem issue_reaches {s : State} {c : Nat} (hc : c < nCobbles) (h : s.mayIssue c = true) (w : W32) (ints fps : List (BitVec 6))
    (body : Cobble → State → State) :
    issue c w ints fps body s =
      .next (if s.intDue c && !((s.attempt c w ints fps body).cob c).tw then s else s.attempt c w ints fps body) := by
  have hh : (s.cob c).hold = .none := by
    simp only [State.mayIssue, Bool.and_eq_true, beq_iff_eq] at h; exact h.1.2
  have hsw : s.settleWait c = s := by simp [State.settleWait, hh]
  simp [issue, onCob, hc, hsw, h]

/-- With no interrupt due, the attempt is what happens. -/
theorem issue_attempts {s : State} {c : Nat} (hc : c < nCobbles) (h : s.canIssue c = true) (w : W32) (ints fps : List (BitVec 6))
    (body : Cobble → State → State) : issue c w ints fps body s = .next (s.attempt c w ints fps body) := by
  have hm : s.mayIssue c = true ∧ s.intDue c = false := by simpa [State.canIssue] using h
  rw [issue_reaches hc hm.1]; simp [hm.2]

/-- The effect of an instruction at a cobble that is ready for it. -/
theorem issue_ready {s : State} {c : Nat} {w : W32} {ints fps : List (BitVec 6)} {body : Cobble → State → State}
    (h : s.ready c ints fps = true) : issue c w ints fps body s = .next (body (s.cob c) s) := by
  simp only [State.ready, Bool.and_eq_true, decide_eq_true_eq] at h
  obtain ⟨⟨⟨⟨⟨hc, hi⟩, hf⟩, hints⟩, hfps⟩, hfly⟩ := h
  have hm : s.mayIssue c = true ∧ s.intDue c = false := by simpa [State.canIssue] using hi
  have hsw := settleWait_of_canIssue hi
  have h1 : ints.any (fun f => (regIdx (s.cob c) f).isNone) = false := by
    rw [List.any_eq_false]; intro f hfm
    have := (List.all_eq_true.1 hints) f hfm
    cases hr : regIdx (s.cob c) f <;> simp_all
  have h2 : fps.any (fun f => decide (32 ≤ f.toNat)) = false := by
    rw [List.any_eq_false]; intro f hfm
    have := (List.all_eq_true.1 hfps) f hfm
    simp at this ⊢; exact this.1
  have h3 : ints.any (fun f => (s.cob c).intBusy ((regIdx (s.cob c) f).getD 0)) = false := by
    rw [List.any_eq_false]; intro f hfm
    have := (List.all_eq_true.1 hints) f hfm
    cases hr : regIdx (s.cob c) f <;> simp_all
  have h4 : fps.any (fun f => (s.cob c).fpBusy f.toNat) = false := by
    rw [List.any_eq_false]; intro f hfm
    have := (List.all_eq_true.1 hfps) f hfm
    simp at this ⊢; exact this.2
  simp only [Bool.not_eq_true'] at hf hfly
  simp [issue, onCob, hc, hsw, hm, State.attempt, hf, h1, h2, h3, h4, hfly]

end Sys2Proof.Machine
end

