-- ==== Sys2Proof/Laws/Table.lean ====
section
/-!
SUPPORT. Tables: a key that is written reads as what was written, every other key reads as before, and the canonical form
is kept.
-/

namespace Sys2Proof.Machine

variable {α : Type}

@[simp] theorem lget_nil (d : α) (k : Nat) : lget d [] k = d := rfl

theorem lget_lset_same (d : α) (t : Tbl α) (k : Nat) (v : α) : lget d (lset t k v) k = v := by
  induction t with
  | nil => simp [lset, lget]
  | cons e t ih =>
    obtain ⟨a, b⟩ := e
    simp only [lset]
    split
    · simp [lget]
    · split
      · simp [lget]
      · rename_i h1 h2; simp [lget, h2, ih]

theorem lget_lset_other (d : α) (t : Tbl α) {k j : Nat} (v : α) (h : j ≠ k) : lget d (lset t k v) j = lget d t j := by
  induction t with
  | nil => simp [lset, lget, h]
  | cons e t ih =>
    obtain ⟨a, b⟩ := e
    simp only [lset]
    split
    · simp [lget, h]
    · split
      · rename_i h2; subst h2; simp [lget, h]
      · simp only [lget, ih]

@[simp] theorem lget_lset (d : α) (t : Tbl α) (k j : Nat) (v : α) :
    lget d (lset t k v) j = if j = k then v else lget d t j := by
  by_cases h : j = k
  · subst h; simp [lget_lset_same]
  · simp [h, lget_lset_other]

/-- Only the last write of a key stays. -/
@[simp] theorem lset_lset (t : Tbl α) (k : Nat) (u v : α) : lset (lset t k u) k v = lset t k v := by
  induction t with
  | nil => simp [lset]
  | cons e t ih =>
    obtain ⟨a, b⟩ := e
    simp only [lset]
    split
    · simp [lset]
    · split
      · simp [lset]
      · rename_i h1 h2; simp only [lset, h1, h2, if_false, ih]

variable [DecidableEq α]

theorem canonFrom_weaken (d : α) {lo lo' : Nat} (h : lo' ≤ lo) {t : Tbl α} (w : canonFrom d lo t = true) :
    canonFrom d lo' t = true := by
  cases t with
  | nil => rfl
  | cons e t =>
    simp only [canonFrom, Bool.and_eq_true, decide_eq_true_eq] at *
    exact ⟨⟨Nat.le_trans h w.1.1, w.1.2⟩, w.2⟩

/-- In canonical form from `lo`, a key below `lo` is not listed. -/
theorem lget_below (d : α) {lo k : Nat} {t : Tbl α} (w : canonFrom d lo t = true) (h : k < lo) : lget d t k = d := by
  induction t generalizing lo with
  | nil => rfl
  | cons e t ih =>
    obtain ⟨a, b⟩ := e
    simp only [canonFrom, Bool.and_eq_true, decide_eq_true_eq] at w
    have : ¬ k = a := by omega
    simp only [lget, this, if_false]
    exact ih w.2 (by omega)

theorem canonFrom_cset (d : α) {lo : Nat} {t : Tbl α} (w : canonFrom d lo t = true) {k : Nat} (hk : lo ≤ k) (v : α) :
    canonFrom d lo (cset d t k v) = true := by
  induction t generalizing lo with
  | nil => simp only [cset]; split <;> simp_all [canonFrom]
  | cons e t ih =>
    obtain ⟨a, b⟩ := e
    simp only [canonFrom, Bool.and_eq_true, decide_eq_true_eq] at w
    simp only [cset]
    split
    · split <;> simp_all [canonFrom] <;> omega
    · split
      · split
        · exact canonFrom_weaken d (by omega) w.2
        · simp_all [canonFrom]
      · simp only [canonFrom, Bool.and_eq_true, decide_eq_true_eq]
        exact ⟨w.1, ih w.2 (by omega)⟩

theorem lget_cset (d : α) {lo : Nat} {t : Tbl α} (w : canonFrom d lo t = true) (k j : Nat) (v : α) :
    lget d (cset d t k v) j = if j = k then v else lget d t j := by
  induction t generalizing lo with
  | nil => simp only [cset]; split <;> simp_all [lget]
  | cons e t ih =>
    obtain ⟨a, b⟩ := e
    simp only [canonFrom, Bool.and_eq_true, decide_eq_true_eq] at w
    simp only [cset]
    split
    · split
      · by_cases h : j = k
        · subst h
          have : ¬ j = a := by omega
          simp_all [lget]
          exact lget_below _ w.2 (by omega)
        · simp [h]
      · simp [lget]
    · split
      · rename_i h2; subst h2
        split
        · by_cases h : j = k
          · subst h; simp_all [lget_below d w.2 (Nat.lt_succ_self j)]
          · simp [lget, h]
        · simp only [lget]; split <;> simp_all
      · rename_i h1 h2
        by_cases h : j = a
        · subst h; simp [lget]; intro h; omega
        · simp only [lget, h, if_false, ih w.2]

theorem canonFrom_lfilter (d : α) (p : Nat → Bool) {lo : Nat} {t : Tbl α} (w : canonFrom d lo t = true) :
    canonFrom d lo (lfilter p t) = true := by
  induction t generalizing lo with
  | nil => rfl
  | cons e t ih =>
    obtain ⟨a, b⟩ := e
    simp only [canonFrom, Bool.and_eq_true, decide_eq_true_eq] at w
    simp only [lfilter, List.filter_cons]
    split
    · simp only [canonFrom, Bool.and_eq_true, decide_eq_true_eq]
      exact ⟨w.1, ih w.2⟩
    · exact canonFrom_weaken d (by omega) (ih w.2)

end Sys2Proof.Machine
end

