-- ==== Sys2Proof/Laws/State.lean ====
section
/-!
SUPPORT. Each update of State: the field it writes, and every field it leaves.
-/

namespace Sys2Proof.Machine

variable (s : State)

@[simp] theorem State.setCob_pending (c : Nat) (k : Cobble) : (s.setCob c k).pending = s.pending := rfl
@[simp] theorem State.setCob_freeCtr (c : Nat) (k : Cobble) : (s.setCob c k).freeCtr = s.freeCtr := rfl
@[simp] theorem State.setCob_ticks (c : Nat) (k : Cobble) : (s.setCob c k).ticks = s.ticks := rfl
@[simp] theorem State.setCob_pktime (c : Nat) (k : Cobble) : (s.setCob c k).pktime = s.pktime := rfl
@[simp] theorem State.setCob_pkPrev (c : Nat) (k : Cobble) : (s.setCob c k).pkPrev = s.pkPrev := rfl
@[simp] theorem State.setCob_approx (c : Nat) (k : Cobble) : (s.setCob c k).approx = s.approx := rfl
@[simp] theorem State.setCob_mem (c : Nat) (k : Cobble) : (s.setCob c k).mem = s.mem := rfl
@[simp] theorem State.setCob_fe (c : Nat) (k : Cobble) : (s.setCob c k).fe = s.fe := rfl
@[simp] theorem State.setCob_psn (c : Nat) (k : Cobble) : (s.setCob c k).psn = s.psn := rfl
@[simp] theorem State.setCob_upset (c : Nat) (k : Cobble) : (s.setCob c k).upset = s.upset := rfl
@[simp] theorem State.setCob_corr (c : Nat) (k : Cobble) : (s.setCob c k).corr = s.corr := rfl
@[simp] theorem State.setCob_poisonDue (c : Nat) (k : Cobble) : (s.setCob c k).poisonDue = s.poisonDue := rfl
@[simp] theorem State.setCob_pos (c : Nat) (k : Cobble) : (s.setCob c k).pos = s.pos := rfl
@[simp] theorem State.setCob_blks (c : Nat) (k : Cobble) : (s.setCob c k).blks = s.blks := rfl
@[simp] theorem State.setCob_isls (c : Nat) (k : Cobble) : (s.setCob c k).isls = s.isls := rfl
@[simp] theorem State.setCob_slots (c : Nat) (k : Cobble) : (s.setCob c k).slots = s.slots := rfl
@[simp] theorem State.setCob_parts (c : Nat) (k : Cobble) : (s.setCob c k).parts = s.parts := rfl
@[simp] theorem State.setCob_ports (c : Nat) (k : Cobble) : (s.setCob c k).ports = s.ports := rfl
@[simp] theorem State.setCob_queues (c : Nat) (k : Cobble) : (s.setCob c k).queues = s.queues := rfl
@[simp] theorem State.setCob_itemSeq (c : Nat) (k : Cobble) : (s.setCob c k).itemSeq = s.itemSeq := rfl
@[simp] theorem State.setCob_fuses (c : Nat) (k : Cobble) : (s.setCob c k).fuses = s.fuses := rfl
@[simp] theorem State.setCob_aon (c : Nat) (k : Cobble) : (s.setCob c k).aon = s.aon := rfl
@[simp] theorem State.setCob_logSlots (c : Nat) (k : Cobble) : (s.setCob c k).logSlots = s.logSlots := rfl
@[simp] theorem State.setCob_trace (c : Nat) (k : Cobble) : (s.setCob c k).trace = s.trace := rfl
@[simp] theorem State.setCob_cethr (c : Nat) (k : Cobble) : (s.setCob c k).cethr = s.cethr := rfl
@[simp] theorem State.setCob_satDue (c : Nat) (k : Cobble) : (s.setCob c k).satDue = s.satDue := rfl

@[simp] theorem State.setBlk_pending (b : Nat) (k : Block) : (s.setBlk b k).pending = s.pending := rfl
@[simp] theorem State.setBlk_freeCtr (b : Nat) (k : Block) : (s.setBlk b k).freeCtr = s.freeCtr := rfl
@[simp] theorem State.setBlk_ticks (b : Nat) (k : Block) : (s.setBlk b k).ticks = s.ticks := rfl
@[simp] theorem State.setBlk_pktime (b : Nat) (k : Block) : (s.setBlk b k).pktime = s.pktime := rfl
@[simp] theorem State.setBlk_pkPrev (b : Nat) (k : Block) : (s.setBlk b k).pkPrev = s.pkPrev := rfl
@[simp] theorem State.setBlk_approx (b : Nat) (k : Block) : (s.setBlk b k).approx = s.approx := rfl
@[simp] theorem State.setBlk_mem (b : Nat) (k : Block) : (s.setBlk b k).mem = s.mem := rfl
@[simp] theorem State.setBlk_fe (b : Nat) (k : Block) : (s.setBlk b k).fe = s.fe := rfl
@[simp] theorem State.setBlk_psn (b : Nat) (k : Block) : (s.setBlk b k).psn = s.psn := rfl
@[simp] theorem State.setBlk_upset (b : Nat) (k : Block) : (s.setBlk b k).upset = s.upset := rfl
@[simp] theorem State.setBlk_corr (b : Nat) (k : Block) : (s.setBlk b k).corr = s.corr := rfl
@[simp] theorem State.setBlk_poisonDue (b : Nat) (k : Block) : (s.setBlk b k).poisonDue = s.poisonDue := rfl
@[simp] theorem State.setBlk_pos (b : Nat) (k : Block) : (s.setBlk b k).pos = s.pos := rfl
@[simp] theorem State.setBlk_cobs (b : Nat) (k : Block) : (s.setBlk b k).cobs = s.cobs := rfl
@[simp] theorem State.setBlk_isls (b : Nat) (k : Block) : (s.setBlk b k).isls = s.isls := rfl
@[simp] theorem State.setBlk_slots (b : Nat) (k : Block) : (s.setBlk b k).slots = s.slots := rfl
@[simp] theorem State.setBlk_parts (b : Nat) (k : Block) : (s.setBlk b k).parts = s.parts := rfl
@[simp] theorem State.setBlk_ports (b : Nat) (k : Block) : (s.setBlk b k).ports = s.ports := rfl
@[simp] theorem State.setBlk_queues (b : Nat) (k : Block) : (s.setBlk b k).queues = s.queues := rfl
@[simp] theorem State.setBlk_itemSeq (b : Nat) (k : Block) : (s.setBlk b k).itemSeq = s.itemSeq := rfl
@[simp] theorem State.setBlk_fuses (b : Nat) (k : Block) : (s.setBlk b k).fuses = s.fuses := rfl
@[simp] theorem State.setBlk_aon (b : Nat) (k : Block) : (s.setBlk b k).aon = s.aon := rfl
@[simp] theorem State.setBlk_logSlots (b : Nat) (k : Block) : (s.setBlk b k).logSlots = s.logSlots := rfl
@[simp] theorem State.setBlk_trace (b : Nat) (k : Block) : (s.setBlk b k).trace = s.trace := rfl
@[simp] theorem State.setBlk_cethr (b : Nat) (k : Block) : (s.setBlk b k).cethr = s.cethr := rfl
@[simp] theorem State.setBlk_satDue (b : Nat) (k : Block) : (s.setBlk b k).satDue = s.satDue := rfl

@[simp] theorem State.setIsl_pending (i : Nat) (k : Island) : (s.setIsl i k).pending = s.pending := rfl
@[simp] theorem State.setIsl_freeCtr (i : Nat) (k : Island) : (s.setIsl i k).freeCtr = s.freeCtr := rfl
@[simp] theorem State.setIsl_ticks (i : Nat) (k : Island) : (s.setIsl i k).ticks = s.ticks := rfl
@[simp] theorem State.setIsl_pktime (i : Nat) (k : Island) : (s.setIsl i k).pktime = s.pktime := rfl
@[simp] theorem State.setIsl_pkPrev (i : Nat) (k : Island) : (s.setIsl i k).pkPrev = s.pkPrev := rfl
@[simp] theorem State.setIsl_approx (i : Nat) (k : Island) : (s.setIsl i k).approx = s.approx := rfl
@[simp] theorem State.setIsl_mem (i : Nat) (k : Island) : (s.setIsl i k).mem = s.mem := rfl
@[simp] theorem State.setIsl_fe (i : Nat) (k : Island) : (s.setIsl i k).fe = s.fe := rfl
@[simp] theorem State.setIsl_psn (i : Nat) (k : Island) : (s.setIsl i k).psn = s.psn := rfl
@[simp] theorem State.setIsl_upset (i : Nat) (k : Island) : (s.setIsl i k).upset = s.upset := rfl
@[simp] theorem State.setIsl_corr (i : Nat) (k : Island) : (s.setIsl i k).corr = s.corr := rfl
@[simp] theorem State.setIsl_poisonDue (i : Nat) (k : Island) : (s.setIsl i k).poisonDue = s.poisonDue := rfl
@[simp] theorem State.setIsl_pos (i : Nat) (k : Island) : (s.setIsl i k).pos = s.pos := rfl
@[simp] theorem State.setIsl_cobs (i : Nat) (k : Island) : (s.setIsl i k).cobs = s.cobs := rfl
@[simp] theorem State.setIsl_blks (i : Nat) (k : Island) : (s.setIsl i k).blks = s.blks := rfl
@[simp] theorem State.setIsl_slots (i : Nat) (k : Island) : (s.setIsl i k).slots = s.slots := rfl
@[simp] theorem State.setIsl_parts (i : Nat) (k : Island) : (s.setIsl i k).parts = s.parts := rfl
@[simp] theorem State.setIsl_ports (i : Nat) (k : Island) : (s.setIsl i k).ports = s.ports := rfl
@[simp] theorem State.setIsl_queues (i : Nat) (k : Island) : (s.setIsl i k).queues = s.queues := rfl
@[simp] theorem State.setIsl_itemSeq (i : Nat) (k : Island) : (s.setIsl i k).itemSeq = s.itemSeq := rfl
@[simp] theorem State.setIsl_fuses (i : Nat) (k : Island) : (s.setIsl i k).fuses = s.fuses := rfl
@[simp] theorem State.setIsl_aon (i : Nat) (k : Island) : (s.setIsl i k).aon = s.aon := rfl
@[simp] theorem State.setIsl_logSlots (i : Nat) (k : Island) : (s.setIsl i k).logSlots = s.logSlots := rfl
@[simp] theorem State.setIsl_trace (i : Nat) (k : Island) : (s.setIsl i k).trace = s.trace := rfl
@[simp] theorem State.setIsl_cethr (i : Nat) (k : Island) : (s.setIsl i k).cethr = s.cethr := rfl
@[simp] theorem State.setIsl_satDue (i : Nat) (k : Island) : (s.setIsl i k).satDue = s.satDue := rfl

@[simp] theorem State.setPort_pending (p : Nat) (k : Port) : (s.setPort p k).pending = s.pending := rfl
@[simp] theorem State.setPort_freeCtr (p : Nat) (k : Port) : (s.setPort p k).freeCtr = s.freeCtr := rfl
@[simp] theorem State.setPort_ticks (p : Nat) (k : Port) : (s.setPort p k).ticks = s.ticks := rfl
@[simp] theorem State.setPort_pktime (p : Nat) (k : Port) : (s.setPort p k).pktime = s.pktime := rfl
@[simp] theorem State.setPort_pkPrev (p : Nat) (k : Port) : (s.setPort p k).pkPrev = s.pkPrev := rfl
@[simp] theorem State.setPort_approx (p : Nat) (k : Port) : (s.setPort p k).approx = s.approx := rfl
@[simp] theorem State.setPort_mem (p : Nat) (k : Port) : (s.setPort p k).mem = s.mem := rfl
@[simp] theorem State.setPort_fe (p : Nat) (k : Port) : (s.setPort p k).fe = s.fe := rfl
@[simp] theorem State.setPort_psn (p : Nat) (k : Port) : (s.setPort p k).psn = s.psn := rfl
@[simp] theorem State.setPort_upset (p : Nat) (k : Port) : (s.setPort p k).upset = s.upset := rfl
@[simp] theorem State.setPort_corr (p : Nat) (k : Port) : (s.setPort p k).corr = s.corr := rfl
@[simp] theorem State.setPort_poisonDue (p : Nat) (k : Port) : (s.setPort p k).poisonDue = s.poisonDue := rfl
@[simp] theorem State.setPort_pos (p : Nat) (k : Port) : (s.setPort p k).pos = s.pos := rfl
@[simp] theorem State.setPort_cobs (p : Nat) (k : Port) : (s.setPort p k).cobs = s.cobs := rfl
@[simp] theorem State.setPort_blks (p : Nat) (k : Port) : (s.setPort p k).blks = s.blks := rfl
@[simp] theorem State.setPort_isls (p : Nat) (k : Port) : (s.setPort p k).isls = s.isls := rfl
@[simp] theorem State.setPort_slots (p : Nat) (k : Port) : (s.setPort p k).slots = s.slots := rfl
@[simp] theorem State.setPort_parts (p : Nat) (k : Port) : (s.setPort p k).parts = s.parts := rfl
@[simp] theorem State.setPort_queues (p : Nat) (k : Port) : (s.setPort p k).queues = s.queues := rfl
@[simp] theorem State.setPort_itemSeq (p : Nat) (k : Port) : (s.setPort p k).itemSeq = s.itemSeq := rfl
@[simp] theorem State.setPort_fuses (p : Nat) (k : Port) : (s.setPort p k).fuses = s.fuses := rfl
@[simp] theorem State.setPort_aon (p : Nat) (k : Port) : (s.setPort p k).aon = s.aon := rfl
@[simp] theorem State.setPort_logSlots (p : Nat) (k : Port) : (s.setPort p k).logSlots = s.logSlots := rfl
@[simp] theorem State.setPort_trace (p : Nat) (k : Port) : (s.setPort p k).trace = s.trace := rfl
@[simp] theorem State.setPort_cethr (p : Nat) (k : Port) : (s.setPort p k).cethr = s.cethr := rfl
@[simp] theorem State.setPort_satDue (p : Nat) (k : Port) : (s.setPort p k).satDue = s.satDue := rfl

@[simp] theorem State.modCob_pending (c : Nat) (f : Cobble → Cobble) : (s.modCob c f).pending = s.pending := rfl
@[simp] theorem State.modCob_freeCtr (c : Nat) (f : Cobble → Cobble) : (s.modCob c f).freeCtr = s.freeCtr := rfl
@[simp] theorem State.modCob_ticks (c : Nat) (f : Cobble → Cobble) : (s.modCob c f).ticks = s.ticks := rfl
@[simp] theorem State.modCob_pktime (c : Nat) (f : Cobble → Cobble) : (s.modCob c f).pktime = s.pktime := rfl
@[simp] theorem State.modCob_pkPrev (c : Nat) (f : Cobble → Cobble) : (s.modCob c f).pkPrev = s.pkPrev := rfl
@[simp] theorem State.modCob_approx (c : Nat) (f : Cobble → Cobble) : (s.modCob c f).approx = s.approx := rfl
@[simp] theorem State.modCob_mem (c : Nat) (f : Cobble → Cobble) : (s.modCob c f).mem = s.mem := rfl
@[simp] theorem State.modCob_fe (c : Nat) (f : Cobble → Cobble) : (s.modCob c f).fe = s.fe := rfl
@[simp] theorem State.modCob_psn (c : Nat) (f : Cobble → Cobble) : (s.modCob c f).psn = s.psn := rfl
@[simp] theorem State.modCob_upset (c : Nat) (f : Cobble → Cobble) : (s.modCob c f).upset = s.upset := rfl
@[simp] theorem State.modCob_corr (c : Nat) (f : Cobble → Cobble) : (s.modCob c f).corr = s.corr := rfl
@[simp] theorem State.modCob_poisonDue (c : Nat) (f : Cobble → Cobble) : (s.modCob c f).poisonDue = s.poisonDue := rfl
@[simp] theorem State.modCob_pos (c : Nat) (f : Cobble → Cobble) : (s.modCob c f).pos = s.pos := rfl
@[simp] theorem State.modCob_blks (c : Nat) (f : Cobble → Cobble) : (s.modCob c f).blks = s.blks := rfl
@[simp] theorem State.modCob_isls (c : Nat) (f : Cobble → Cobble) : (s.modCob c f).isls = s.isls := rfl
@[simp] theorem State.modCob_slots (c : Nat) (f : Cobble → Cobble) : (s.modCob c f).slots = s.slots := rfl
@[simp] theorem State.modCob_parts (c : Nat) (f : Cobble → Cobble) : (s.modCob c f).parts = s.parts := rfl
@[simp] theorem State.modCob_ports (c : Nat) (f : Cobble → Cobble) : (s.modCob c f).ports = s.ports := rfl
@[simp] theorem State.modCob_queues (c : Nat) (f : Cobble → Cobble) : (s.modCob c f).queues = s.queues := rfl
@[simp] theorem State.modCob_itemSeq (c : Nat) (f : Cobble → Cobble) : (s.modCob c f).itemSeq = s.itemSeq := rfl
@[simp] theorem State.modCob_fuses (c : Nat) (f : Cobble → Cobble) : (s.modCob c f).fuses = s.fuses := rfl
@[simp] theorem State.modCob_aon (c : Nat) (f : Cobble → Cobble) : (s.modCob c f).aon = s.aon := rfl
@[simp] theorem State.modCob_logSlots (c : Nat) (f : Cobble → Cobble) : (s.modCob c f).logSlots = s.logSlots := rfl
@[simp] theorem State.modCob_trace (c : Nat) (f : Cobble → Cobble) : (s.modCob c f).trace = s.trace := rfl
@[simp] theorem State.modCob_cethr (c : Nat) (f : Cobble → Cobble) : (s.modCob c f).cethr = s.cethr := rfl
@[simp] theorem State.modCob_satDue (c : Nat) (f : Cobble → Cobble) : (s.modCob c f).satDue = s.satDue := rfl

@[simp] theorem State.modBlk_pending (b : Nat) (f : Block → Block) : (s.modBlk b f).pending = s.pending := rfl
@[simp] theorem State.modBlk_freeCtr (b : Nat) (f : Block → Block) : (s.modBlk b f).freeCtr = s.freeCtr := rfl
@[simp] theorem State.modBlk_ticks (b : Nat) (f : Block → Block) : (s.modBlk b f).ticks = s.ticks := rfl
@[simp] theorem State.modBlk_pktime (b : Nat) (f : Block → Block) : (s.modBlk b f).pktime = s.pktime := rfl
@[simp] theorem State.modBlk_pkPrev (b : Nat) (f : Block → Block) : (s.modBlk b f).pkPrev = s.pkPrev := rfl
@[simp] theorem State.modBlk_approx (b : Nat) (f : Block → Block) : (s.modBlk b f).approx = s.approx := rfl
@[simp] theorem State.modBlk_mem (b : Nat) (f : Block → Block) : (s.modBlk b f).mem = s.mem := rfl
@[simp] theorem State.modBlk_fe (b : Nat) (f : Block → Block) : (s.modBlk b f).fe = s.fe := rfl
@[simp] theorem State.modBlk_psn (b : Nat) (f : Block → Block) : (s.modBlk b f).psn = s.psn := rfl
@[simp] theorem State.modBlk_upset (b : Nat) (f : Block → Block) : (s.modBlk b f).upset = s.upset := rfl
@[simp] theorem State.modBlk_corr (b : Nat) (f : Block → Block) : (s.modBlk b f).corr = s.corr := rfl
@[simp] theorem State.modBlk_poisonDue (b : Nat) (f : Block → Block) : (s.modBlk b f).poisonDue = s.poisonDue := rfl
@[simp] theorem State.modBlk_pos (b : Nat) (f : Block → Block) : (s.modBlk b f).pos = s.pos := rfl
@[simp] theorem State.modBlk_cobs (b : Nat) (f : Block → Block) : (s.modBlk b f).cobs = s.cobs := rfl
@[simp] theorem State.modBlk_isls (b : Nat) (f : Block → Block) : (s.modBlk b f).isls = s.isls := rfl
@[simp] theorem State.modBlk_slots (b : Nat) (f : Block → Block) : (s.modBlk b f).slots = s.slots := rfl
@[simp] theorem State.modBlk_parts (b : Nat) (f : Block → Block) : (s.modBlk b f).parts = s.parts := rfl
@[simp] theorem State.modBlk_ports (b : Nat) (f : Block → Block) : (s.modBlk b f).ports = s.ports := rfl
@[simp] theorem State.modBlk_queues (b : Nat) (f : Block → Block) : (s.modBlk b f).queues = s.queues := rfl
@[simp] theorem State.modBlk_itemSeq (b : Nat) (f : Block → Block) : (s.modBlk b f).itemSeq = s.itemSeq := rfl
@[simp] theorem State.modBlk_fuses (b : Nat) (f : Block → Block) : (s.modBlk b f).fuses = s.fuses := rfl
@[simp] theorem State.modBlk_aon (b : Nat) (f : Block → Block) : (s.modBlk b f).aon = s.aon := rfl
@[simp] theorem State.modBlk_logSlots (b : Nat) (f : Block → Block) : (s.modBlk b f).logSlots = s.logSlots := rfl
@[simp] theorem State.modBlk_trace (b : Nat) (f : Block → Block) : (s.modBlk b f).trace = s.trace := rfl
@[simp] theorem State.modBlk_cethr (b : Nat) (f : Block → Block) : (s.modBlk b f).cethr = s.cethr := rfl
@[simp] theorem State.modBlk_satDue (b : Nat) (f : Block → Block) : (s.modBlk b f).satDue = s.satDue := rfl

@[simp] theorem State.modIsl_pending (i : Nat) (f : Island → Island) : (s.modIsl i f).pending = s.pending := rfl
@[simp] theorem State.modIsl_freeCtr (i : Nat) (f : Island → Island) : (s.modIsl i f).freeCtr = s.freeCtr := rfl
@[simp] theorem State.modIsl_ticks (i : Nat) (f : Island → Island) : (s.modIsl i f).ticks = s.ticks := rfl
@[simp] theorem State.modIsl_pktime (i : Nat) (f : Island → Island) : (s.modIsl i f).pktime = s.pktime := rfl
@[simp] theorem State.modIsl_pkPrev (i : Nat) (f : Island → Island) : (s.modIsl i f).pkPrev = s.pkPrev := rfl
@[simp] theorem State.modIsl_approx (i : Nat) (f : Island → Island) : (s.modIsl i f).approx = s.approx := rfl
@[simp] theorem State.modIsl_mem (i : Nat) (f : Island → Island) : (s.modIsl i f).mem = s.mem := rfl
@[simp] theorem State.modIsl_fe (i : Nat) (f : Island → Island) : (s.modIsl i f).fe = s.fe := rfl
@[simp] theorem State.modIsl_psn (i : Nat) (f : Island → Island) : (s.modIsl i f).psn = s.psn := rfl
@[simp] theorem State.modIsl_upset (i : Nat) (f : Island → Island) : (s.modIsl i f).upset = s.upset := rfl
@[simp] theorem State.modIsl_corr (i : Nat) (f : Island → Island) : (s.modIsl i f).corr = s.corr := rfl
@[simp] theorem State.modIsl_poisonDue (i : Nat) (f : Island → Island) : (s.modIsl i f).poisonDue = s.poisonDue := rfl
@[simp] theorem State.modIsl_pos (i : Nat) (f : Island → Island) : (s.modIsl i f).pos = s.pos := rfl
@[simp] theorem State.modIsl_cobs (i : Nat) (f : Island → Island) : (s.modIsl i f).cobs = s.cobs := rfl
@[simp] theorem State.modIsl_blks (i : Nat) (f : Island → Island) : (s.modIsl i f).blks = s.blks := rfl
@[simp] theorem State.modIsl_slots (i : Nat) (f : Island → Island) : (s.modIsl i f).slots = s.slots := rfl
@[simp] theorem State.modIsl_parts (i : Nat) (f : Island → Island) : (s.modIsl i f).parts = s.parts := rfl
@[simp] theorem State.modIsl_ports (i : Nat) (f : Island → Island) : (s.modIsl i f).ports = s.ports := rfl
@[simp] theorem State.modIsl_queues (i : Nat) (f : Island → Island) : (s.modIsl i f).queues = s.queues := rfl
@[simp] theorem State.modIsl_itemSeq (i : Nat) (f : Island → Island) : (s.modIsl i f).itemSeq = s.itemSeq := rfl
@[simp] theorem State.modIsl_fuses (i : Nat) (f : Island → Island) : (s.modIsl i f).fuses = s.fuses := rfl
@[simp] theorem State.modIsl_aon (i : Nat) (f : Island → Island) : (s.modIsl i f).aon = s.aon := rfl
@[simp] theorem State.modIsl_logSlots (i : Nat) (f : Island → Island) : (s.modIsl i f).logSlots = s.logSlots := rfl
@[simp] theorem State.modIsl_trace (i : Nat) (f : Island → Island) : (s.modIsl i f).trace = s.trace := rfl
@[simp] theorem State.modIsl_cethr (i : Nat) (f : Island → Island) : (s.modIsl i f).cethr = s.cethr := rfl
@[simp] theorem State.modIsl_satDue (i : Nat) (f : Island → Island) : (s.modIsl i f).satDue = s.satDue := rfl

@[simp] theorem State.modPort_pending (p : Nat) (f : Port → Port) : (s.modPort p f).pending = s.pending := rfl
@[simp] theorem State.modPort_freeCtr (p : Nat) (f : Port → Port) : (s.modPort p f).freeCtr = s.freeCtr := rfl
@[simp] theorem State.modPort_ticks (p : Nat) (f : Port → Port) : (s.modPort p f).ticks = s.ticks := rfl
@[simp] theorem State.modPort_pktime (p : Nat) (f : Port → Port) : (s.modPort p f).pktime = s.pktime := rfl
@[simp] theorem State.modPort_pkPrev (p : Nat) (f : Port → Port) : (s.modPort p f).pkPrev = s.pkPrev := rfl
@[simp] theorem State.modPort_approx (p : Nat) (f : Port → Port) : (s.modPort p f).approx = s.approx := rfl
@[simp] theorem State.modPort_mem (p : Nat) (f : Port → Port) : (s.modPort p f).mem = s.mem := rfl
@[simp] theorem State.modPort_fe (p : Nat) (f : Port → Port) : (s.modPort p f).fe = s.fe := rfl
@[simp] theorem State.modPort_psn (p : Nat) (f : Port → Port) : (s.modPort p f).psn = s.psn := rfl
@[simp] theorem State.modPort_upset (p : Nat) (f : Port → Port) : (s.modPort p f).upset = s.upset := rfl
@[simp] theorem State.modPort_corr (p : Nat) (f : Port → Port) : (s.modPort p f).corr = s.corr := rfl
@[simp] theorem State.modPort_poisonDue (p : Nat) (f : Port → Port) : (s.modPort p f).poisonDue = s.poisonDue := rfl
@[simp] theorem State.modPort_pos (p : Nat) (f : Port → Port) : (s.modPort p f).pos = s.pos := rfl
@[simp] theorem State.modPort_cobs (p : Nat) (f : Port → Port) : (s.modPort p f).cobs = s.cobs := rfl
@[simp] theorem State.modPort_blks (p : Nat) (f : Port → Port) : (s.modPort p f).blks = s.blks := rfl
@[simp] theorem State.modPort_isls (p : Nat) (f : Port → Port) : (s.modPort p f).isls = s.isls := rfl
@[simp] theorem State.modPort_slots (p : Nat) (f : Port → Port) : (s.modPort p f).slots = s.slots := rfl
@[simp] theorem State.modPort_parts (p : Nat) (f : Port → Port) : (s.modPort p f).parts = s.parts := rfl
@[simp] theorem State.modPort_queues (p : Nat) (f : Port → Port) : (s.modPort p f).queues = s.queues := rfl
@[simp] theorem State.modPort_itemSeq (p : Nat) (f : Port → Port) : (s.modPort p f).itemSeq = s.itemSeq := rfl
@[simp] theorem State.modPort_fuses (p : Nat) (f : Port → Port) : (s.modPort p f).fuses = s.fuses := rfl
@[simp] theorem State.modPort_aon (p : Nat) (f : Port → Port) : (s.modPort p f).aon = s.aon := rfl
@[simp] theorem State.modPort_logSlots (p : Nat) (f : Port → Port) : (s.modPort p f).logSlots = s.logSlots := rfl
@[simp] theorem State.modPort_trace (p : Nat) (f : Port → Port) : (s.modPort p f).trace = s.trace := rfl
@[simp] theorem State.modPort_cethr (p : Nat) (f : Port → Port) : (s.modPort p f).cethr = s.cethr := rfl
@[simp] theorem State.modPort_satDue (p : Nat) (f : Port → Port) : (s.modPort p f).satDue = s.satDue := rfl

@[simp] theorem State.modPart_pending (p : Nat) (f : Part → Part) : (s.modPart p f).pending = s.pending := rfl
@[simp] theorem State.modPart_freeCtr (p : Nat) (f : Part → Part) : (s.modPart p f).freeCtr = s.freeCtr := rfl
@[simp] theorem State.modPart_ticks (p : Nat) (f : Part → Part) : (s.modPart p f).ticks = s.ticks := rfl
@[simp] theorem State.modPart_pktime (p : Nat) (f : Part → Part) : (s.modPart p f).pktime = s.pktime := rfl
@[simp] theorem State.modPart_pkPrev (p : Nat) (f : Part → Part) : (s.modPart p f).pkPrev = s.pkPrev := rfl
@[simp] theorem State.modPart_approx (p : Nat) (f : Part → Part) : (s.modPart p f).approx = s.approx := rfl
@[simp] theorem State.modPart_mem (p : Nat) (f : Part → Part) : (s.modPart p f).mem = s.mem := rfl
@[simp] theorem State.modPart_fe (p : Nat) (f : Part → Part) : (s.modPart p f).fe = s.fe := rfl
@[simp] theorem State.modPart_psn (p : Nat) (f : Part → Part) : (s.modPart p f).psn = s.psn := rfl
@[simp] theorem State.modPart_upset (p : Nat) (f : Part → Part) : (s.modPart p f).upset = s.upset := rfl
@[simp] theorem State.modPart_corr (p : Nat) (f : Part → Part) : (s.modPart p f).corr = s.corr := rfl
@[simp] theorem State.modPart_poisonDue (p : Nat) (f : Part → Part) : (s.modPart p f).poisonDue = s.poisonDue := rfl
@[simp] theorem State.modPart_pos (p : Nat) (f : Part → Part) : (s.modPart p f).pos = s.pos := rfl
@[simp] theorem State.modPart_cobs (p : Nat) (f : Part → Part) : (s.modPart p f).cobs = s.cobs := rfl
@[simp] theorem State.modPart_blks (p : Nat) (f : Part → Part) : (s.modPart p f).blks = s.blks := rfl
@[simp] theorem State.modPart_isls (p : Nat) (f : Part → Part) : (s.modPart p f).isls = s.isls := rfl
@[simp] theorem State.modPart_slots (p : Nat) (f : Part → Part) : (s.modPart p f).slots = s.slots := rfl
@[simp] theorem State.modPart_ports (p : Nat) (f : Part → Part) : (s.modPart p f).ports = s.ports := rfl
@[simp] theorem State.modPart_queues (p : Nat) (f : Part → Part) : (s.modPart p f).queues = s.queues := rfl
@[simp] theorem State.modPart_itemSeq (p : Nat) (f : Part → Part) : (s.modPart p f).itemSeq = s.itemSeq := rfl
@[simp] theorem State.modPart_fuses (p : Nat) (f : Part → Part) : (s.modPart p f).fuses = s.fuses := rfl
@[simp] theorem State.modPart_aon (p : Nat) (f : Part → Part) : (s.modPart p f).aon = s.aon := rfl
@[simp] theorem State.modPart_logSlots (p : Nat) (f : Part → Part) : (s.modPart p f).logSlots = s.logSlots := rfl
@[simp] theorem State.modPart_trace (p : Nat) (f : Part → Part) : (s.modPart p f).trace = s.trace := rfl
@[simp] theorem State.modPart_cethr (p : Nat) (f : Part → Part) : (s.modPart p f).cethr = s.cethr := rfl
@[simp] theorem State.modPart_satDue (p : Nat) (f : Part → Part) : (s.modPart p f).satDue = s.satDue := rfl

@[simp] theorem State.modSlot_pending (k : Nat) (f : Slot → Slot) : (s.modSlot k f).pending = s.pending := rfl
@[simp] theorem State.modSlot_freeCtr (k : Nat) (f : Slot → Slot) : (s.modSlot k f).freeCtr = s.freeCtr := rfl
@[simp] theorem State.modSlot_ticks (k : Nat) (f : Slot → Slot) : (s.modSlot k f).ticks = s.ticks := rfl
@[simp] theorem State.modSlot_pktime (k : Nat) (f : Slot → Slot) : (s.modSlot k f).pktime = s.pktime := rfl
@[simp] theorem State.modSlot_pkPrev (k : Nat) (f : Slot → Slot) : (s.modSlot k f).pkPrev = s.pkPrev := rfl
@[simp] theorem State.modSlot_approx (k : Nat) (f : Slot → Slot) : (s.modSlot k f).approx = s.approx := rfl
@[simp] theorem State.modSlot_mem (k : Nat) (f : Slot → Slot) : (s.modSlot k f).mem = s.mem := rfl
@[simp] theorem State.modSlot_fe (k : Nat) (f : Slot → Slot) : (s.modSlot k f).fe = s.fe := rfl
@[simp] theorem State.modSlot_psn (k : Nat) (f : Slot → Slot) : (s.modSlot k f).psn = s.psn := rfl
@[simp] theorem State.modSlot_upset (k : Nat) (f : Slot → Slot) : (s.modSlot k f).upset = s.upset := rfl
@[simp] theorem State.modSlot_corr (k : Nat) (f : Slot → Slot) : (s.modSlot k f).corr = s.corr := rfl
@[simp] theorem State.modSlot_poisonDue (k : Nat) (f : Slot → Slot) : (s.modSlot k f).poisonDue = s.poisonDue := rfl
@[simp] theorem State.modSlot_pos (k : Nat) (f : Slot → Slot) : (s.modSlot k f).pos = s.pos := rfl
@[simp] theorem State.modSlot_cobs (k : Nat) (f : Slot → Slot) : (s.modSlot k f).cobs = s.cobs := rfl
@[simp] theorem State.modSlot_blks (k : Nat) (f : Slot → Slot) : (s.modSlot k f).blks = s.blks := rfl
@[simp] theorem State.modSlot_isls (k : Nat) (f : Slot → Slot) : (s.modSlot k f).isls = s.isls := rfl
@[simp] theorem State.modSlot_parts (k : Nat) (f : Slot → Slot) : (s.modSlot k f).parts = s.parts := rfl
@[simp] theorem State.modSlot_ports (k : Nat) (f : Slot → Slot) : (s.modSlot k f).ports = s.ports := rfl
@[simp] theorem State.modSlot_queues (k : Nat) (f : Slot → Slot) : (s.modSlot k f).queues = s.queues := rfl
@[simp] theorem State.modSlot_itemSeq (k : Nat) (f : Slot → Slot) : (s.modSlot k f).itemSeq = s.itemSeq := rfl
@[simp] theorem State.modSlot_fuses (k : Nat) (f : Slot → Slot) : (s.modSlot k f).fuses = s.fuses := rfl
@[simp] theorem State.modSlot_aon (k : Nat) (f : Slot → Slot) : (s.modSlot k f).aon = s.aon := rfl
@[simp] theorem State.modSlot_logSlots (k : Nat) (f : Slot → Slot) : (s.modSlot k f).logSlots = s.logSlots := rfl
@[simp] theorem State.modSlot_trace (k : Nat) (f : Slot → Slot) : (s.modSlot k f).trace = s.trace := rfl
@[simp] theorem State.modSlot_cethr (k : Nat) (f : Slot → Slot) : (s.modSlot k f).cethr = s.cethr := rfl
@[simp] theorem State.modSlot_satDue (k : Nat) (f : Slot → Slot) : (s.modSlot k f).satDue = s.satDue := rfl

@[simp] theorem State.modAon_pending (f : Aon → Aon) : (s.modAon f).pending = s.pending := rfl
@[simp] theorem State.modAon_freeCtr (f : Aon → Aon) : (s.modAon f).freeCtr = s.freeCtr := rfl
@[simp] theorem State.modAon_ticks (f : Aon → Aon) : (s.modAon f).ticks = s.ticks := rfl
@[simp] theorem State.modAon_pktime (f : Aon → Aon) : (s.modAon f).pktime = s.pktime := rfl
@[simp] theorem State.modAon_pkPrev (f : Aon → Aon) : (s.modAon f).pkPrev = s.pkPrev := rfl
@[simp] theorem State.modAon_approx (f : Aon → Aon) : (s.modAon f).approx = s.approx := rfl
@[simp] theorem State.modAon_mem (f : Aon → Aon) : (s.modAon f).mem = s.mem := rfl
@[simp] theorem State.modAon_fe (f : Aon → Aon) : (s.modAon f).fe = s.fe := rfl
@[simp] theorem State.modAon_psn (f : Aon → Aon) : (s.modAon f).psn = s.psn := rfl
@[simp] theorem State.modAon_upset (f : Aon → Aon) : (s.modAon f).upset = s.upset := rfl
@[simp] theorem State.modAon_corr (f : Aon → Aon) : (s.modAon f).corr = s.corr := rfl
@[simp] theorem State.modAon_poisonDue (f : Aon → Aon) : (s.modAon f).poisonDue = s.poisonDue := rfl
@[simp] theorem State.modAon_pos (f : Aon → Aon) : (s.modAon f).pos = s.pos := rfl
@[simp] theorem State.modAon_cobs (f : Aon → Aon) : (s.modAon f).cobs = s.cobs := rfl
@[simp] theorem State.modAon_blks (f : Aon → Aon) : (s.modAon f).blks = s.blks := rfl
@[simp] theorem State.modAon_isls (f : Aon → Aon) : (s.modAon f).isls = s.isls := rfl
@[simp] theorem State.modAon_slots (f : Aon → Aon) : (s.modAon f).slots = s.slots := rfl
@[simp] theorem State.modAon_parts (f : Aon → Aon) : (s.modAon f).parts = s.parts := rfl
@[simp] theorem State.modAon_ports (f : Aon → Aon) : (s.modAon f).ports = s.ports := rfl
@[simp] theorem State.modAon_queues (f : Aon → Aon) : (s.modAon f).queues = s.queues := rfl
@[simp] theorem State.modAon_itemSeq (f : Aon → Aon) : (s.modAon f).itemSeq = s.itemSeq := rfl
@[simp] theorem State.modAon_fuses (f : Aon → Aon) : (s.modAon f).fuses = s.fuses := rfl
@[simp] theorem State.modAon_logSlots (f : Aon → Aon) : (s.modAon f).logSlots = s.logSlots := rfl
@[simp] theorem State.modAon_trace (f : Aon → Aon) : (s.modAon f).trace = s.trace := rfl
@[simp] theorem State.modAon_cethr (f : Aon → Aon) : (s.modAon f).cethr = s.cethr := rfl
@[simp] theorem State.modAon_satDue (f : Aon → Aon) : (s.modAon f).satDue = s.satDue := rfl

theorem State.setCob_cob (c : Nat) (k : Cobble) (d : Nat) : (s.setCob c k).cob d = if d = c then k else s.cob d := by
  simp [State.setCob, State.cob]
@[simp] theorem State.setCob_cob_same (c : Nat) (k : Cobble) : (s.setCob c k).cob c = k := by
  simp [State.setCob_cob]
theorem State.setBlk_blk (b : Nat) (k : Block) (d : Nat) : (s.setBlk b k).blk d = if d = b then k else s.blk d := by
  simp [State.setBlk, State.blk]
@[simp] theorem State.setBlk_blk_same (b : Nat) (k : Block) : (s.setBlk b k).blk b = k := by
  simp [State.setBlk_blk]
theorem State.setIsl_isl (i : Nat) (k : Island) (d : Nat) : (s.setIsl i k).isl d = if d = i then k else s.isl d := by
  simp [State.setIsl, State.isl]
@[simp] theorem State.setIsl_isl_same (i : Nat) (k : Island) : (s.setIsl i k).isl i = k := by
  simp [State.setIsl_isl]
theorem State.setPort_port (p : Nat) (k : Port) (d : Nat) : (s.setPort p k).port d = if d = p then k else s.port d := by
  simp [State.setPort, State.port]
@[simp] theorem State.setPort_port_same (p : Nat) (k : Port) : (s.setPort p k).port p = k := by
  simp [State.setPort_port]
theorem State.modCob_cob (c : Nat) (f : Cobble → Cobble) (d : Nat) :
    (s.modCob c f).cob d = if d = c then f (s.cob c) else s.cob d := by
  simp [State.modCob, State.setCob_cob]
@[simp] theorem State.modCob_cob_same (c : Nat) (f : Cobble → Cobble) : (s.modCob c f).cob c = f (s.cob c) := by
  simp [State.modCob_cob]
theorem State.modBlk_blk (b : Nat) (f : Block → Block) (d : Nat) :
    (s.modBlk b f).blk d = if d = b then f (s.blk b) else s.blk d := by
  simp [State.modBlk, State.setBlk_blk]
@[simp] theorem State.modBlk_blk_same (b : Nat) (f : Block → Block) : (s.modBlk b f).blk b = f (s.blk b) := by
  simp [State.modBlk_blk]
theorem State.modIsl_isl (i : Nat) (f : Island → Island) (d : Nat) :
    (s.modIsl i f).isl d = if d = i then f (s.isl i) else s.isl d := by
  simp [State.modIsl, State.setIsl_isl]
@[simp] theorem State.modIsl_isl_same (i : Nat) (f : Island → Island) : (s.modIsl i f).isl i = f (s.isl i) := by
  simp [State.modIsl_isl]
theorem State.modPort_port (p : Nat) (f : Port → Port) (d : Nat) :
    (s.modPort p f).port d = if d = p then f (s.port p) else s.port d := by
  simp [State.modPort, State.setPort_port]
@[simp] theorem State.modPort_port_same (p : Nat) (f : Port → Port) : (s.modPort p f).port p = f (s.port p) := by
  simp [State.modPort_port]
@[simp] theorem State.setCob_setCob (c : Nat) (u v : Cobble) : (s.setCob c u).setCob c v = s.setCob c v := by
  simp [State.setCob]
@[simp] theorem State.setBlk_setBlk (b : Nat) (u v : Block) : (s.setBlk b u).setBlk b v = s.setBlk b v := by
  simp [State.setBlk]
@[simp] theorem State.setIsl_setIsl (i : Nat) (u v : Island) : (s.setIsl i u).setIsl i v = s.setIsl i v := by
  simp [State.setIsl]
@[simp] theorem State.setPort_setPort (p : Nat) (u v : Port) : (s.setPort p u).setPort p v = s.setPort p v := by
  simp [State.setPort]
@[simp] theorem State.setBlk_cob (b : Nat) (k : Block) (d : Nat) : (s.setBlk b k).cob d = s.cob d := rfl
@[simp] theorem State.setIsl_cob (i : Nat) (k : Island) (d : Nat) : (s.setIsl i k).cob d = s.cob d := rfl
@[simp] theorem State.setPort_cob (p : Nat) (k : Port) (d : Nat) : (s.setPort p k).cob d = s.cob d := rfl
@[simp] theorem State.modBlk_cob (b : Nat) (f : Block → Block) (d : Nat) : (s.modBlk b f).cob d = s.cob d := rfl
@[simp] theorem State.modIsl_cob (i : Nat) (f : Island → Island) (d : Nat) : (s.modIsl i f).cob d = s.cob d := rfl
@[simp] theorem State.modPort_cob (p : Nat) (f : Port → Port) (d : Nat) : (s.modPort p f).cob d = s.cob d := rfl
@[simp] theorem State.modPart_cob (p : Nat) (f : Part → Part) (d : Nat) : (s.modPart p f).cob d = s.cob d := rfl
@[simp] theorem State.modSlot_cob (k : Nat) (f : Slot → Slot) (d : Nat) : (s.modSlot k f).cob d = s.cob d := rfl
@[simp] theorem State.modAon_cob (f : Aon → Aon) (d : Nat) : (s.modAon f).cob d = s.cob d := rfl
@[simp] theorem State.setCob_blk (c : Nat) (k : Cobble) (d : Nat) : (s.setCob c k).blk d = s.blk d := rfl
@[simp] theorem State.setIsl_blk (i : Nat) (k : Island) (d : Nat) : (s.setIsl i k).blk d = s.blk d := rfl
@[simp] theorem State.setPort_blk (p : Nat) (k : Port) (d : Nat) : (s.setPort p k).blk d = s.blk d := rfl
@[simp] theorem State.modCob_blk (c : Nat) (f : Cobble → Cobble) (d : Nat) : (s.modCob c f).blk d = s.blk d := rfl
@[simp] theorem State.modIsl_blk (i : Nat) (f : Island → Island) (d : Nat) : (s.modIsl i f).blk d = s.blk d := rfl
@[simp] theorem State.modPort_blk (p : Nat) (f : Port → Port) (d : Nat) : (s.modPort p f).blk d = s.blk d := rfl
@[simp] theorem State.modPart_blk (p : Nat) (f : Part → Part) (d : Nat) : (s.modPart p f).blk d = s.blk d := rfl
@[simp] theorem State.modSlot_blk (k : Nat) (f : Slot → Slot) (d : Nat) : (s.modSlot k f).blk d = s.blk d := rfl
@[simp] theorem State.modAon_blk (f : Aon → Aon) (d : Nat) : (s.modAon f).blk d = s.blk d := rfl
@[simp] theorem State.setCob_isl (c : Nat) (k : Cobble) (d : Nat) : (s.setCob c k).isl d = s.isl d := rfl
@[simp] theorem State.setBlk_isl (b : Nat) (k : Block) (d : Nat) : (s.setBlk b k).isl d = s.isl d := rfl
@[simp] theorem State.setPort_isl (p : Nat) (k : Port) (d : Nat) : (s.setPort p k).isl d = s.isl d := rfl
@[simp] theorem State.modCob_isl (c : Nat) (f : Cobble → Cobble) (d : Nat) : (s.modCob c f).isl d = s.isl d := rfl
@[simp] theorem State.modBlk_isl (b : Nat) (f : Block → Block) (d : Nat) : (s.modBlk b f).isl d = s.isl d := rfl
@[simp] theorem State.modPort_isl (p : Nat) (f : Port → Port) (d : Nat) : (s.modPort p f).isl d = s.isl d := rfl
@[simp] theorem State.modPart_isl (p : Nat) (f : Part → Part) (d : Nat) : (s.modPart p f).isl d = s.isl d := rfl
@[simp] theorem State.modSlot_isl (k : Nat) (f : Slot → Slot) (d : Nat) : (s.modSlot k f).isl d = s.isl d := rfl
@[simp] theorem State.modAon_isl (f : Aon → Aon) (d : Nat) : (s.modAon f).isl d = s.isl d := rfl
@[simp] theorem State.setCob_port (c : Nat) (k : Cobble) (d : Nat) : (s.setCob c k).port d = s.port d := rfl
@[simp] theorem State.setBlk_port (b : Nat) (k : Block) (d : Nat) : (s.setBlk b k).port d = s.port d := rfl
@[simp] theorem State.setIsl_port (i : Nat) (k : Island) (d : Nat) : (s.setIsl i k).port d = s.port d := rfl
@[simp] theorem State.modCob_port (c : Nat) (f : Cobble → Cobble) (d : Nat) : (s.modCob c f).port d = s.port d := rfl
@[simp] theorem State.modBlk_port (b : Nat) (f : Block → Block) (d : Nat) : (s.modBlk b f).port d = s.port d := rfl
@[simp] theorem State.modIsl_port (i : Nat) (f : Island → Island) (d : Nat) : (s.modIsl i f).port d = s.port d := rfl
@[simp] theorem State.modPart_port (p : Nat) (f : Part → Part) (d : Nat) : (s.modPart p f).port d = s.port d := rfl
@[simp] theorem State.modSlot_port (k : Nat) (f : Slot → Slot) (d : Nat) : (s.modSlot k f).port d = s.port d := rfl
@[simp] theorem State.modAon_port (f : Aon → Aon) (d : Nat) : (s.modAon f).port d = s.port d := rfl
@[simp] theorem State.setCob_partn (c : Nat) (k : Cobble) (d : Nat) : (s.setCob c k).partn d = s.partn d := rfl
@[simp] theorem State.setBlk_partn (b : Nat) (k : Block) (d : Nat) : (s.setBlk b k).partn d = s.partn d := rfl
@[simp] theorem State.setIsl_partn (i : Nat) (k : Island) (d : Nat) : (s.setIsl i k).partn d = s.partn d := rfl
@[simp] theorem State.setPort_partn (p : Nat) (k : Port) (d : Nat) : (s.setPort p k).partn d = s.partn d := rfl
@[simp] theorem State.modCob_partn (c : Nat) (f : Cobble → Cobble) (d : Nat) : (s.modCob c f).partn d = s.partn d := rfl
@[simp] theorem State.modBlk_partn (b : Nat) (f : Block → Block) (d : Nat) : (s.modBlk b f).partn d = s.partn d := rfl
@[simp] theorem State.modIsl_partn (i : Nat) (f : Island → Island) (d : Nat) : (s.modIsl i f).partn d = s.partn d := rfl
@[simp] theorem State.modPort_partn (p : Nat) (f : Port → Port) (d : Nat) : (s.modPort p f).partn d = s.partn d := rfl
@[simp] theorem State.modSlot_partn (k : Nat) (f : Slot → Slot) (d : Nat) : (s.modSlot k f).partn d = s.partn d := rfl
@[simp] theorem State.modAon_partn (f : Aon → Aon) (d : Nat) : (s.modAon f).partn d = s.partn d := rfl
theorem State.modPart_partn (p : Nat) (f : Part → Part) (d : Nat) :
    (s.modPart p f).partn d = if d = p then f (s.partn p) else s.partn d := by
  simp [State.modPart, State.partn]

end Sys2Proof.Machine
end

