-- ==== Sys2Proof/Laws/Memory.lean ====
section
/-!
SUPPORT. Memory: every operation over it keeps the canonical form, a byte reads as what was last written, and the
operations on FE bits, check bits and counters leave the bytes alone.
-/

namespace Sys2Proof.Machine

variable (s : State)

/-- Empty memory is canonical. -/
theorem Memory.wf_nil : Memory.wf [] = true := rfl

/-- Writing a byte keeps the canonical form. -/
theorem State.wr8_wf {s : State} (h : Memory.wf s.mem = true) (a : Nat) (v : Byte) : Memory.wf (s.wr8 a v).mem = true :=
  canonFrom_cset 0 h (Nat.zero_le a) v

/-- A written byte reads as written; every other byte reads as before. -/
theorem State.wr8_rd8 {s : State} (h : Memory.wf s.mem = true) (a b : Nat) (v : Byte) :
    (s.wr8 a v).rd8 b = if b = a then v else s.rd8 b :=
  lget_cset 0 h a b v

theorem State.wrBytes_wf {s : State} (h : Memory.wf s.mem = true) (a m : Nat) (d : List Byte) :
    Memory.wf (s.wrBytes a m d).mem = true := by
  induction d generalizing s a m with
  | nil => exact h
  | cons v vs ih =>
    simp only [wrBytes]; split
    · exact ih (wr8_wf h a v) _ _
    · exact ih h _ _

/-- The bytes that a masked write of `n` bytes from `a` reaches. -/
theorem State.wrBytes_rd8 {s : State} (h : Memory.wf s.mem = true) (a m : Nat) (d : List Byte) (b : Nat) :
    (s.wrBytes a m d).rd8 b = if a ≤ b ∧ b < a + d.length ∧ bit m (b - a) = true then d.getD (b - a) 0 else s.rd8 b := by
  induction d generalizing s a m with
  | nil => simp [wrBytes]; intro h1 h2; omega
  | cons v vs ih =>
    have hw : Memory.wf (if m % 2 = 1 then s.wr8 a v else s).mem = true := by
      split
      · exact wr8_wf h a v
      · exact h
    simp only [wrBytes, ih hw, List.length_cons]
    by_cases hb : b = a
    · subst hb
      have h1 : ¬ (b + 1 ≤ b ∧ b < b + 1 + vs.length ∧ bit (m / 2) (b - (b + 1)) = true) := by omega
      rw [if_neg h1]
      by_cases hm : m % 2 = 1 <;> simp [hm, wr8_rd8 h, bit]
    · have e : (if m % 2 = 1 then s.wr8 a v else s).rd8 b = s.rd8 b := by
        split <;> simp [wr8_rd8 h, hb]
      rw [e]
      by_cases hlt : a < b
      · have h2 : b - a = (b - (a + 1)) + 1 := by omega
        have h3 : bit m (b - a) = bit (m / 2) (b - (a + 1)) := by
          rw [h2, bit, bit, Nat.pow_succ, Nat.mul_comm, ← Nat.div_div_eq_div_mul]
        rw [h3, h2, List.getD_cons_succ]
        have h4 : (a + 1 ≤ b ∧ b < a + 1 + vs.length ∧ bit (m / 2) (b - (a + 1)) = true) ↔
            (a ≤ b ∧ b < a + (vs.length + 1) ∧ bit (m / 2) (b - (a + 1)) = true) := by
          constructor <;> intro ⟨x, y, z⟩ <;> exact ⟨by omega, by omega, z⟩
        simp only [h4]
      · have h1 : ¬ (a + 1 ≤ b ∧ b < a + 1 + vs.length ∧ bit (m / 2) (b - (a + 1)) = true) := by omega
        have h2 : ¬ (a ≤ b ∧ b < a + (vs.length + 1) ∧ bit m (b - a) = true) := by omega
        simp only [h1, h2, if_false]

@[simp] theorem State.satLog_mem {w : Nat} (kind id n : Nat) (x y : BitVec w) : (s.satLog kind id n x y).mem = s.mem := by
  simp only [satLog]; split <;> rfl
@[simp] theorem State.logEvent_mem (kind id e p : Nat) (d : List Nat) : (s.logEvent kind id e p d).mem = s.mem := by
  simp only [logEvent]; split <;> rfl
@[simp] theorem State.logBlk_mem (b e : Nat) (d : List Nat) : (s.logBlk b e d).mem = s.mem := by simp [logBlk]
@[simp] theorem State.countCe_mem (b : Nat) : (s.countCe b).mem = s.mem := by simp [countCe]
@[simp] theorem State.countUe_mem (a : Nat) (x : Bool) : (s.countUe a x).mem = s.mem := by simp [countUe]
@[simp] theorem State.detect_mem (a : Nat) (x : Bool) : (s.detect a x).mem = s.mem := by
  simp only [detect]; split <;> simp
@[simp] theorem State.readRow_mem (a : Nat) (x : Bool) : (s.readRow a x).2.mem = s.mem := by
  simp only [readRow]; split
  · rfl
  · split <;> simp
@[simp] theorem State.readRows_mem (l : List Nat) : (s.readRows l).2.mem = s.mem := by
  induction l generalizing s with
  | nil => rfl
  | cons a as ih => simp [readRows, ih]
@[simp] theorem State.readMem_mem (a n : Nat) : (s.readMem a n).2.2.mem = s.mem := by simp [readMem]
@[simp] theorem State.writeRow_mem (a : Nat) (f p : Bool) : (s.writeRow a f p).mem = s.mem := by
  simp only [writeRow]; split <;> simp
@[simp] theorem State.writeRowsOf_mem (a m n : Nat) (p : Bool) (l : List Nat) : (s.writeRowsOf a m n p l).mem = s.mem := by
  induction l generalizing s with
  | nil => rfl
  | cons x xs ih => simp only [writeRowsOf, ih]; split <;> simp

/-- A masked write keeps the canonical form. -/
theorem State.writeMem_wf {s : State} (h : Memory.wf s.mem = true) (a m : Nat) (d : List Byte) (p : Bool) :
    Memory.wf (s.writeMem a m d p).mem = true := by
  apply wrBytes_wf; simpa using h

/-- A masked write changes the bytes whose mask bit is 1 and no other. -/
theorem State.writeMem_rd8 {s : State} (h : Memory.wf s.mem = true) (a m : Nat) (d : List Byte) (p : Bool) (b : Nat) :
    (s.writeMem a m d p).rd8 b =
      if a ≤ b ∧ b < a + d.length ∧ bit m (b - a) = true then d.getD (b - a) 0 else s.rd8 b := by
  rw [writeMem, wrBytes_rd8 (by simpa using h)]; simp [rd8]

@[simp] theorem State.foldl_mem {β : Type} (f : State → β → State) (h : ∀ s x, (f s x).mem = s.mem) (l : List β) :
    (l.foldl f s).mem = s.mem := by
  induction l generalizing s with
  | nil => rfl
  | cons x xs ih => simp [ih, h]

@[simp] theorem State.setFe_mem (a : Nat) (v : Bool) : (s.setFe a v).mem = s.mem := by
  simp only [setFe]
  split
  · split
    · split <;> simp
    · rfl
  · split
    · rfl
    · rw [foldl_mem] <;> simp

@[simp] theorem State.fillWords_mem (a m n : Nat) : (s.fillWords a m n).mem = s.mem := by
  simp only [fillWords]
  rw [foldl_mem]; intro s x; split <;> simp

end Sys2Proof.Machine
end

