-- ==== Sys2Proof/Laws/Ring.lean ====
section
/-!
SUPPORT. The service ring: what one message does on a free ring, where no way leads, and at a stop that drops it.
-/

namespace Sys2Proof.Machine

/-- On an idle ring a message is the only one, and the master stop takes it from its queue. -/
theorem State.ringSend_idle {s : State} {tag i : Nat} {op : RingOp} (h : s.aon.ringq = []) :
    s.ringSend tag i op =
      (s.modAon (fun a => { a with ringq := [], ringLast := tag })).ringTake { tag := tag, isl := i, op := op } := by
  simp [State.ringSend, State.ringPost, State.ringRun, State.ringStep, Aon.ringNext, State.modAon, h]

/-- Neither the tag nor the queue of the ring changes where a way leads. -/
@[simp] theorem Aon.ringWay_ringq (a : Aon) (q : List RingMsg) (n i : Nat) :
    ({ a with ringq := q, ringLast := n } : Aon).ringWay i = a.ringWay i := rfl

/-- On a free ring the message has its effect. -/
theorem State.ringSend_free {s : State} {tag i : Nat} {op : RingOp} (h : ringFree s tag i) :
    s.ringSend tag i op =
      (s.modAon (fun a => { a with ringq := [], ringLast := tag })).ringEffect { tag := tag, isl := i, op := op } := by
  obtain ⟨hq, hw, ha⟩ := h
  rw [State.ringSend_idle hq]
  have ha' : (s.modAon (fun a => { a with ringq := [], ringLast := tag })).ringActs tag i = true := ha
  have hw' : ((s.modAon (fun a => { a with ringq := [], ringLast := tag })).aon.ringWay i).isNone = false := by
    show (s.aon.ringWay i).isNone = false
    cases hr : s.aon.ringWay i <;> simp_all
  simp only [State.ringTake, hw', ha', if_true, Bool.false_eq_true, if_false]

/-- On an idle ring a message that no way in service carries to its stop has no effect. -/
theorem State.ringSend_cut {s : State} {tag i : Nat} {op : RingOp} (h : s.aon.ringq = []) (hw : s.aon.ringWay i = none) :
    s.ringSend tag i op = s.modAon (fun a => { a with ringq := [], ringLast := tag }) := by
  rw [State.ringSend_idle h]
  have hw' : ((s.modAon (fun a => { a with ringq := [], ringLast := tag })).aon.ringWay i).isNone = true := by
    show (s.aon.ringWay i).isNone = true
    simp [hw]
  simp only [State.ringTake, hw', if_true]

/-- A control stop of another partition drops a message and logs it (R412). -/
theorem State.ringTake_drops {s : State} {m : RingMsg} (hw : (s.aon.ringWay m.isl).isSome = true)
    (ha : s.ringActs m.tag m.isl = false) :
    s.ringTake m = s.logEvent 1 m.isl 0x42 (s.isl m.isl).part [m.tag] := by
  have : (s.aon.ringWay m.isl).isNone = false := by
    cases hr : s.aon.ringWay m.isl <;> simp_all
  simp [State.ringTake, this, ha]

end Sys2Proof.Machine
end

