-- ==== Sys2Proof/Laws/Trap.lean ====
section
/-!
SUPPORT. The log, the trace, the end of a wait, trap entry and the end of a context: each as an equation that names the
only fields of the state it can write.
-/

namespace Sys2Proof.Machine

variable (s : State)

theorem State.logEvent_writes (kind id e p : Nat) (d : List Nat) :
    ∃ l, s.logEvent kind id e p d = { s with logSlots := l } := by
  simp only [logEvent]; split <;> exact ⟨_, rfl⟩

theorem State.logBlk_writes (b e : Nat) (d : List Nat) : ∃ l, s.logBlk b e d = { s with logSlots := l } :=
  s.logEvent_writes _ _ _ _ _

/-- After an event its source has an open slot. -/
theorem State.logEvent_opens (kind id e p : Nat) (d : List Nat) :
    (s.logEvent kind id e p d).logSlots.any (fun l => l.kind == kind && l.id == id) = true := by
  simp only [logEvent]
  split
  · rename_i h
    rw [List.any_map]
    obtain ⟨x, hx, hp⟩ := List.any_eq_true.1 h
    refine List.any_eq_true.2 ⟨x, hx, ?_⟩
    simp only [Function.comp]
    split <;> exact hp
  · simp

theorem State.traceEv_writes (c : Nat) (k : TraceKind) (d : BitVec 40) : ∃ tr, s.traceEv c k d = { s with trace := tr } := by
  simp only [traceEv]
  split
  · exact ⟨_, rfl⟩
  · split
    · exact ⟨_, rfl⟩
    · split
      · exact ⟨_, rfl⟩
      · split <;> exact ⟨_, rfl⟩

theorem State.traceFree_writes (c : Nat) (k : TraceKind) :
    ∃ tr n, s.traceFree c k = { s with trace := tr, freeCtr := n } := by
  simp only [traceFree]
  split
  · obtain ⟨tr, h⟩ := (s.draw.2).traceEv_writes c k (s.draw.1.setWidth 40)
    exact ⟨tr, s.freeCtr + 1, h⟩
  · exact ⟨_, _, rfl⟩

theorem State.opMove_writes (i : Nat) : ∃ l, s.opMove i = { s with isls := l } := ⟨_, rfl⟩
theorem State.endWait_writes (c : Nat) : ∃ l, s.endWait c = { s with isls := l } := ⟨_, rfl⟩

theorem State.fwBell_writes (p d : Nat) : ∃ l, s.fwBell p d = { s with blks := l } := by
  simp only [fwBell]; split <;> exact ⟨_, rfl⟩

theorem State.coreEnded_writes (c : Nat) : ∃ l m, s.coreEnded c = { s with parts := l, blks := m } := by
  simp only [coreEnded]
  split
  · exact ⟨_, _, rfl⟩
  · obtain ⟨m, h⟩ := State.fwBell_writes (s.modPart (s.partOfBlk (blkOf c)) (fun k => { k with
      run := 2, endTick := s.pktime,
      outcome := boolNat (s.partHas (s.partOfBlk (blkOf c)) (fun q => q.run == .failed)) })) (s.partOfBlk (blkOf c))
      (boolNat (s.partHas (s.partOfBlk (blkOf c)) (fun q => q.run == .failed)) +
        256 * (s.partn (s.partOfBlk (blkOf c))).variant)
    exact ⟨_, m, h⟩

/-- A trap outside the trap window writes its cobble, by Cobble.enter, and the trace. -/
theorem State.trap_enters {s : State} {c : Nat} (h : (s.cob c).tw = false) (cause : Nat) (info lpc : W64) :
    ∃ tr, s.trap c cause info lpc = { s.setCob c ((s.cob c).enter cause info lpc) with trace := tr } := by
  simp only [trap, h, Bool.false_eq_true, if_false]
  exact State.traceEv_writes _ _ _ _

/-- WINDOW_EXHAUSTED fails its cobble, and beside it writes islands, partitions, blocks and the log's slots only. -/
theorem State.exhaust_writes (c : Nat) :
    ∃ i p b l, s.exhaust c =
      { s.setCob c { s.cob c with run := .failed, hold := .none, feSince := none } with isls := i, parts := p, blks := b, logSlots := l } := by
  simp only [exhaust]
  obtain ⟨i, hi⟩ := (s.setCob c { s.cob c with run := .failed, hold := .none, feSince := none }).endWait_writes c
  rw [hi]
  obtain ⟨l, hl⟩ := State.logBlk_writes { s.setCob c { s.cob c with run := .failed, hold := .none, feSince := none } with isls := i } (blkOf c) 7
    [c % 256, (s.cob c).trpc.toNat]
  rw [hl]
  obtain ⟨p, b, h⟩ := State.coreEnded_writes
    { s.setCob c { s.cob c with run := .failed, hold := .none, feSince := none } with isls := i, logSlots := l } c
  exact ⟨i, p, b, l, h⟩

/-- A trap inside the trap window is WINDOW_EXHAUSTED. -/
theorem State.trap_exhausts {s : State} {c : Nat} (h : (s.cob c).tw = true) (cause : Nat) (info lpc : W64) :
    s.trap c cause info lpc = s.exhaust c := by
  simp [trap, h]

/-- A trap changes no memory and no other cobble. -/
theorem State.trap_frame (c cause : Nat) (info lpc : W64) :
    sameMemory s (s.trap c cause info lpc) ∧ otherCobbles c s (s.trap c cause info lpc) := by
  cases h : (s.cob c).tw
  · obtain ⟨tr, e⟩ := trap_enters h cause info lpc
    rw [e]
    exact ⟨⟨rfl, rfl, rfl, rfl⟩, fun d hd => (s.setCob_cob c _ d).trans (if_neg hd)⟩
  · obtain ⟨i, p, b, l, e⟩ := s.exhaust_writes c
    rw [trap_exhausts h, e]
    exact ⟨⟨rfl, rfl, rfl, rfl⟩, fun d hd => (s.setCob_cob c _ d).trans (if_neg hd)⟩

end Sys2Proof.Machine
end

