-- ==== Sys2Proof/WellFormed.lean ====
section
/-!
DEFINITION. Which commands are well formed: every unit number names a unit that the die has (Table 01-1, Table 00-2).
-/

namespace Sys2Proof

/-- The unit numbers of a command lie in their ranges. -/
def Instr.wellFormed : Instr → Bool
  | .add c _ _ _ _ => decide (c < 81920)
  | .sub c _ _ _ _ => decide (c < 81920)
  | .and c _ _ _ _ => decide (c < 81920)
  | .or c _ _ _ _ => decide (c < 81920)
  | .xor c _ _ _ _ => decide (c < 81920)
  | .shll c _ _ _ _ => decide (c < 81920)
  | .shrl c _ _ _ _ => decide (c < 81920)
  | .shra c _ _ _ _ => decide (c < 81920)
  | .setlt c _ _ _ _ => decide (c < 81920)
  | .setltu c _ _ _ _ => decide (c < 81920)
  | .min c _ _ _ _ => decide (c < 81920)
  | .max c _ _ _ _ => decide (c < 81920)
  | .minu c _ _ _ _ => decide (c < 81920)
  | .maxu c _ _ _ _ => decide (c < 81920)
  | .addI c _ _ _ => decide (c < 81920)
  | .andI c _ _ _ => decide (c < 81920)
  | .orI c _ _ _ => decide (c < 81920)
  | .xorI c _ _ _ => decide (c < 81920)
  | .shllI c _ _ _ => decide (c < 81920)
  | .shrlI c _ _ _ => decide (c < 81920)
  | .shraI c _ _ _ => decide (c < 81920)
  | .setltI c _ _ _ => decide (c < 81920)
  | .setltuI c _ _ _ => decide (c < 81920)
  | .ldhi c _ _ => decide (c < 81920)
  | .pchi c _ _ => decide (c < 81920)
  | .mul c _ _ _ _ => decide (c < 81920)
  | .mulhs c _ _ _ _ => decide (c < 81920)
  | .mulhu c _ _ _ _ => decide (c < 81920)
  | .divs c _ _ _ _ => decide (c < 81920)
  | .divu c _ _ _ _ => decide (c < 81920)
  | .mods c _ _ _ _ => decide (c < 81920)
  | .modu c _ _ _ _ => decide (c < 81920)
  | .ldB c _ _ _ => decide (c < 81920)
  | .ldBu c _ _ _ => decide (c < 81920)
  | .ldH c _ _ _ => decide (c < 81920)
  | .ldHu c _ _ _ => decide (c < 81920)
  | .ldW c _ _ _ => decide (c < 81920)
  | .ldWu c _ _ _ => decide (c < 81920)
  | .ldD c _ _ _ => decide (c < 81920)
  | .fldS c _ _ _ => decide (c < 81920)
  | .fldD c _ _ _ => decide (c < 81920)
  | .stB c _ _ _ => decide (c < 81920)
  | .stH c _ _ _ => decide (c < 81920)
  | .stW c _ _ _ => decide (c < 81920)
  | .stD c _ _ _ => decide (c < 81920)
  | .fstS c _ _ _ => decide (c < 81920)
  | .fstD c _ _ _ => decide (c < 81920)
  | .ldwf c _ _ _ => decide (c < 81920)
  | .lde c _ _ _ => decide (c < 81920)
  | .stwe c _ _ _ => decide (c < 81920)
  | .stf c _ _ _ => decide (c < 81920)
  | .purge c _ _ _ => decide (c < 81920)
  | .brEq c _ _ _ => decide (c < 81920)
  | .brNe c _ _ _ => decide (c < 81920)
  | .brLt c _ _ _ => decide (c < 81920)
  | .brGe c _ _ _ => decide (c < 81920)
  | .brLtu c _ _ _ => decide (c < 81920)
  | .brGeu c _ _ _ => decide (c < 81920)
  | .jlink c _ => decide (c < 81920)
  | .jlinkr c _ _ _ => decide (c < 81920)
  | .wcall c _ => decide (c < 81920)
  | .wcallr c _ _ _ => decide (c < 81920)
  | .wret c _ => decide (c < 81920)
  | .crd c _ _ _ => decide (c < 81920)
  | .cwr c _ _ _ => decide (c < 81920)
  | .cset c _ _ _ => decide (c < 81920)
  | .cclr c _ _ _ => decide (c < 81920)
  | .fence c _ _ => decide (c < 81920)
  | .phase c _ _ => decide (c < 81920)
  | .wait c _ _ => decide (c < 81920)
  | .exit c _ _ => decide (c < 81920)
  | .trap c _ _ => decide (c < 81920)
  | .brk c _ _ => decide (c < 81920)
  | .hret c _ _ => decide (c < 81920)
  | .fadd c _ _ _ _ => decide (c < 81920)
  | .fsub c _ _ _ _ => decide (c < 81920)
  | .fmul c _ _ _ _ => decide (c < 81920)
  | .fdiv c _ _ _ _ => decide (c < 81920)
  | .fsqrt c _ _ _ _ => decide (c < 81920)
  | .fmin c _ _ _ _ => decide (c < 81920)
  | .fmax c _ _ _ _ => decide (c < 81920)
  | .fcmpEq c _ _ _ _ => decide (c < 81920)
  | .fcmpLt c _ _ _ _ => decide (c < 81920)
  | .fcmpLe c _ _ _ _ => decide (c < 81920)
  | .fkind c _ _ _ _ => decide (c < 81920)
  | .fmov c _ _ _ _ => decide (c < 81920)
  | .fcvtF c _ _ _ _ => decide (c < 81920)
  | .fcvtFi c _ _ _ _ => decide (c < 81920)
  | .fcvtIf c _ _ _ _ => decide (c < 81920)
  | .frint c _ _ _ _ => decide (c < 81920)
  | .fma c _ _ _ _ _ => decide (c < 81920)
  | .fms c _ _ _ _ _ => decide (c < 81920)
  | .fnma c _ _ _ _ _ => decide (c < 81920)
  | .fnms c _ _ _ _ _ => decide (c < 81920)
  | .vld c _ _ _ => decide (c < 81920)
  | .vst c _ _ _ => decide (c < 81920)
  | .vadd c _ _ _ _ _ _ => decide (c < 81920)
  | .vsub c _ _ _ _ _ _ => decide (c < 81920)
  | .vmul c _ _ _ _ _ _ => decide (c < 81920)
  | .vfma c _ _ _ _ _ _ => decide (c < 81920)
  | .vfms c _ _ _ _ _ _ => decide (c < 81920)
  | .vfnma c _ _ _ _ _ _ => decide (c < 81920)
  | .vmin c _ _ _ _ _ _ => decide (c < 81920)
  | .vmax c _ _ _ _ _ _ => decide (c < 81920)
  | .vcmpeq c _ _ _ _ _ _ => decide (c < 81920)
  | .vcmplt c _ _ _ _ _ _ => decide (c < 81920)
  | .vcmple c _ _ _ _ _ _ => decide (c < 81920)
  | .vsel c _ _ _ _ _ _ => decide (c < 81920)
  | .vcvt c _ _ _ _ _ _ => decide (c < 81920)
  | .vcmul c _ _ _ _ _ _ _ => decide (c < 81920)
  | .vcfma c _ _ _ _ _ _ _ => decide (c < 81920)
  | .vsplit3 c _ _ _ _ _ _ => decide (c < 81920)
  | .vbcast c _ _ _ _ _ _ => decide (c < 81920)
  | .vext c _ _ _ _ _ _ => decide (c < 81920)
  | .vins c _ _ _ _ _ _ => decide (c < 81920)
  | .tld c _ _ _ _ _ _ _ => decide (c < 81920)
  | .tmac c _ _ _ _ _ _ _ => decide (c < 81920)
  | .tst c _ _ _ _ _ _ _ => decide (c < 81920)
  | .pfence c _ => decide (c < 81920)
  | .mma c _ _ _ _ _ _ _ => decide (c < 81920)
  | .mmas c _ _ _ _ _ _ _ _ _ => decide (c < 81920)
  | .accz c _ _ _ => decide (c < 81920)
  | .accld c _ _ _ => decide (c < 81920)
  | .accst c _ _ _ => decide (c < 81920)
  | .mmroww c _ _ _ _ => decide (c < 81920)
  | .mmcolw c _ _ _ _ => decide (c < 81920)
  | .mmrowr c _ _ _ => decide (c < 81920)
  | .mmcolr c _ _ _ => decide (c < 81920)
  | .mscb c _ _ _ => decide (c < 81920)
  | .vsetl c _ _ _ => decide (c < 81920)
  | .chld c _ _ _ => decide (c < 81920)
  | .tldp c _ _ _ _ _ _ => decide (c < 81920)
  | .tstp c _ _ _ _ _ _ => decide (c < 81920)
  | .tldl c _ _ _ _ _ _ _ => decide (c < 81920)
  | .tstl c _ _ _ _ _ _ _ => decide (c < 81920)
  | .top c _ _ _ _ _ _ _ => decide (c < 81920)
  | .chain c _ _ => decide (c < 81920)
  | .tcvtbn c _ _ _ _ _ _ _ _ => decide (c < 81920)
  | .tcvtbw c _ _ _ _ _ _ _ _ => decide (c < 81920)
  | .tsplit3 c _ _ _ _ _ _ => decide (c < 81920)
  | .tcmpr c _ _ _ _ _ => decide (c < 81920)
  | .texpd c _ _ _ _ _ => decide (c < 81920)
  | .rowReduce c _ _ _ _ _ _ _ _ => decide (c < 81920)
  | .columnReduce c _ _ _ _ _ _ _ _ => decide (c < 81920)
  | .fullTileReduce c _ _ _ _ _ _ _ _ => decide (c < 81920)
  | .rowScan c _ _ _ _ _ _ _ _ => decide (c < 81920)
  | .columnScan c _ _ _ _ _ _ _ _ => decide (c < 81920)
  | .tmvx c _ _ _ _ _ _ => decide (c < 81920)
  | .tmvi c _ _ _ _ _ _ => decide (c < 81920)
  | .tflg c _ _ _ _ _ _ => decide (c < 81920)
  | .feTimeout c => decide (c < 81920)
  | .interruptEntry c => decide (c < 81920)
  | .deferredTrap c => decide (c < 81920)
  | .timerInterrupt c => decide (c < 81920)
  | .storeBufferWrite c => decide (c < 81920)
  | .blockStoreBankService b bank => decide (b < 320) && decide (bank < 64)
  | .globalLoadAnswer c => decide (c < 81920)
  | .postedStoreAck c => decide (c < 81920)
  | .postedStoreRefused c => decide (c < 81920)
  | .feWakeScratchpad c => decide (c < 81920)
  | .feWakeBlockStore c => decide (c < 81920)
  | .remoteFeOperation b => decide (b < 320)
  | .remoteFeResend c => decide (c < 81920)
  | .backgroundBankAccess b cob => decide (b < 320) && decide (cob < 256)
  | .externalWave b => decide (b < 320)
  | .correctionWriteBack _ => true
  | .poisonWrite _ => true
  | .scrubRowDue b _ => decide (b < 320)
  | .scrubRead b _ => decide (b < 320)
  | .scrubStarved b _ => decide (b < 320)
  | .ceRate b => decide (b < 320)
  | .remoteAccess b => decide (b < 320)
  | .windowOpen b => decide (b < 320)
  | .windowClose b => decide (b < 320)
  | .windowCloseAck b => decide (b < 320)
  | .cachectlWrite b => decide (b < 320)
  | .cacheopNone b => decide (b < 320)
  | .flush b => decide (b < 320)
  | .inv b => decide (b < 320)
  | .flushinv b => decide (b < 320)
  | .cacheOperationDone b => decide (b < 320)
  | .cacheFillDone b => decide (b < 320)
  | .syncSet b => decide (b < 320)
  | .syncAdd b => decide (b < 320)
  | .syncRead b => decide (b < 320)
  | .syncwatchArm c _ _ => decide (c < 81920)
  | .syncwatchWithdraw c _ _ => decide (c < 81920)
  | .watchRegistration b => decide (b < 320)
  | .watchWake c => decide (c < 81920)
  | .withdrawalAck c => decide (c < 81920)
  | .barrierArrival b => decide (b < 320)
  | .barrierChildArrival b => decide (b < 320)
  | .barrierRelease b => decide (b < 320)
  | .hostSignalAdd pp _ _ => decide (pp < 12)
  | .hostSignalSet pp _ _ => decide (pp < 12)
  | .hostSignalRead pp _ _ => decide (pp < 12)
  | .doorbell b => decide (b < 320)
  | .doorbellQueued pp => decide (pp < 12)
  | .doorbellSend pp => decide (pp < 12)
  | .islandClear i => decide (i < 10)
  | .islandReportsClear i => decide (i < 10)
  | .park i => decide (i < 10)
  | .waitctlWrite i _ => decide (i < 10)
  | .piazzaCountEnd k _ => decide (k < 20)
  | .laneUnitPowerDown c => decide (c < 81920)
  | .laneUnitWakeDone c => decide (c < 81920)
  | .svxctlWrite c _ => decide (c < 81920)
  | .laneSleep k => decide (k < 20)
  | .laneWakeDone k => decide (k < 20)
  | .pvctlWrite k _ => decide (k < 20)
  | .pzcfgModeWrite k _ => decide (k < 20)
  | .chnProdWrite b => decide (b < 320)
  | .descriptorStart b ch => decide (b < 320) && decide (ch < 16)
  | .dmaPieceRequest b => decide (b < 320)
  | .dmaAnswer b => decide (b < 320)
  | .descriptorDrained b ch => decide (b < 320) && decide (ch < 16)
  | .descriptorComplete b ch => decide (b < 320) && decide (ch < 16)
  | .descriptorTimeout b ch => decide (b < 320) && decide (ch < 16)
  | .clr b => decide (b < 320)
  | .abort b => decide (b < 320)
  | .rd sp => decide (sp < 160)
  | .wr sp => decide (sp < 160)
  | .wrm sp => decide (sp < 160)
  | .rly sp => decide (sp < 160)
  | .rsp sp => decide (sp < 160)
  | .ack sp => decide (sp < 160)
  | .inboundRly sp => decide (sp < 160)
  | .outboundBeat sp => decide (sp < 160)
  | .inboundBeat sp _ _ => decide (sp < 160)
  | .beatAnswer sp => decide (sp < 160)
  | .beatNak sp _ => decide (sp < 160)
  | .replayRateWindow pt => decide (pt < 172)
  | .frameSend pp => decide (pp < 12)
  | .dataFrame pp _ => decide (pp < 12)
  | .controlFrame pp _ => decide (pp < 12)
  | .frameReplayTimeout pp => decide (pp < 12)
  | .ackseqReport pp => decide (pp < 12)
  | .controlFrameInterval pp => decide (pp < 12)
  | .train pt _ => decide (pt < 172)
  | .retire pt => decide (pt < 172)
  | .presenceBeat pt _ => decide (pt < 172)
  | .roleBeat pt _ _ _ => decide (pt < 172)
  | .capabilityBeat pt _ => decide (pt < 172)
  | .sweepBeat pt _ _ => decide (pt < 172)
  | .verifyBeat pt _ => decide (pt < 172)
  | .doneBeat pt => decide (pt < 172)
  | .statusBeat pt _ _ => decide (pt < 172)
  | .trainingTimeout pt => decide (pt < 172)
  | .mirrorPeriod pt _ _ => decide (pt < 172)
  | .quietWindowProbe sp _ _ => decide (sp < 160)
  | .seamIdleTest b _ _ => decide (b < 320)
  | .packetInjection b => decide (b < 320)
  | .routerGrant b port5 _ => decide (b < 320) && decide (port5 < 5)
  | .priorityAgeing b _ _ => decide (b < 320)
  | .creditReturn b port5 vc => decide (b < 320) && decide (port5 < 5) && decide (vc < 6)
  | .packetEjection b vc => decide (b < 320) && decide (vc < 6)
  | .nocpriWrite b => decide (b < 320)
  | .nteFrameReceived i => decide (i < 10)
  | .incomingSend i => decide (i < 10)
  | .incomingWrite i => decide (i < 10)
  | .incomingRead i => decide (i < 10)
  | .readResponse i => decide (i < 10)
  | .incomingAck i => decide (i < 10)
  | .incomingNak i => decide (i < 10)
  | .incomingCnp i => decide (i < 10)
  | .sqidxProdWrite i => decide (i < 10)
  | .rqidxProdWrite i => decide (i < 10)
  | .send i qp => decide (i < 10) && decide (qp < 512)
  | .sendImm i qp => decide (i < 10) && decide (qp < 512)
  | .write i qp => decide (i < 10) && decide (qp < 512)
  | .writeImm i qp => decide (i < 10) && decide (qp < 512)
  | .read i qp => decide (i < 10) && decide (qp < 512)
  | .workRequestComplete i qp => decide (i < 10) && decide (qp < 512)
  | .responderCompletion i qp => decide (i < 10) && decide (qp < 512)
  | .localAckTimeout i qp => decide (i < 10) && decide (qp < 512)
  | .rnrTimer i qp => decide (i < 10) && decide (qp < 512)
  | .talpha i qp => decide (i < 10) && decide (qp < 512)
  | .tinc i qp => decide (i < 10) && decide (qp < 512)
  | .mrValidSet i => decide (i < 10)
  | .mrValidClear i => decide (i < 10)
  | .commandItem pp => decide (pp < 12)
  | .itemStart q => decide (q < 11)
  | .commandTimeout q => decide (q < 11)
  | .identify => true
  | .readStepcnt => true
  | .readPartmap => true
  | .setPlan => true
  | .openPartition part => decide (part < 10)
  | .closePartition part => decide (part < 10)
  | .setSlotMode part => decide (part < 10)
  | .queryPartition part => decide (part < 10)
  | .loadImage part _ => decide (part < 10)
  | .unloadImage part => decide (part < 10)
  | .launch part _ => decide (part < 10)
  | .setSigperm part => decide (part < 10)
  | .signal part => decide (part < 10)
  | .bindStream part => decide (part < 10)
  | .unbindStream part => decide (part < 10)
  | .nteEndpoint part => decide (part < 10)
  | .qpConnect part => decide (part < 10)
  | .qpDisconnect part => decide (part < 10)
  | .linkStatus => true
  | .linkTrain => true
  | .linkRetire => true
  | .contextSwitch part => decide (part < 10)
  | .resetPartition part => decide (part < 10)
  | .resetBlock b => decide (b < 320)
  | .resetCobble c => decide (c < 81920)
  | .resetEngine b eng => decide (b < 320) && decide (eng < 4)
  | .fenceCommand => true
  | .flushQueue => true
  | .resetChip => true
  | .readLog => true
  | .readDump => true
  | .copyDump => true
  | .readErrcnt => true
  | .setBudget => true
  | .readTelemetry => true
  | .setOpcap => true
  | .readAgeing => true
  | .selftestRun => true
  | .selftestStatus => true
  | .attest => true
  | .getCert => true
  | .fwStage => true
  | .fwActivate => true
  | .debugChallenge => true
  | .debugUnlock => true
  | .debugLock => true
  | .halt => true
  | .resume => true
  | .readCore => true
  | .readSync => true
  | .traceCtl => true
  | .engineWatchdog b eng => decide (b < 320) && decide (eng < 4)
  | .drainLimit _ => true
  | .guiltyPartyReplay b eng => decide (b < 320) && decide (eng < 4)
  | .kick => true
  | .mgmtWatchdogExpiry _ => true
  | .mgmtRestartDone => true
  | .attnFrame => true
  | .mgmtUnreachable => true
  | .partitionLost part => decide (part < 10)
  | .dumpRecordCopied part => decide (part < 10)
  | .powerReading pp => decide (pp < 12)
  | .readingsMissing => true
  | .powerStatusMessage => true
  | .regulatorSettled i => decide (i < 10)
  | .alertNAssert => true
  | .alertNRelease => true
  | .alertReleaseDelay => true
  | .brownoutHoldStart i => decide (i < 10)
  | .brownoutHoldEnd i => decide (i < 10)
  | .brownoutRegulatorFail i => decide (i < 10)
  | .sentinelMeasurement i _ _ _ _ => decide (i < 10)
  | .stepTimeSample i _ => decide (i < 10)
  | .marginReplan => true
  | .thermalTrip _ _ => true
  | .timerefEdge => true
  | .timerefLoss => true
  | .timeMessage _ => true
  | .logRecordWrite => true
  | .logCopyAck => true
  | .cntWrap i ev => decide (i < 10) && decide (ev < 8)
  | .cntSat => true
  | .pktimeLoRead => true
  | .stepcntLoRead i ev => decide (i < 10) && decide (ev < 8)
  | .energyLoRead => true
  | .rcRegisterRead b => decide (b < 320)
  | .registerWrite _ _ _ _ _ => true
  | .blkmapWrite b _ => decide (b < 320)
  | .bootphWrite _ => true
  | .pwrgoodRise _ _ _ => true
  | .pwrgoodFall => true
  | .resetNAssert => true
  | .resetNRelease => true
  | .vaonLow => true
  | .vinRailChange _ _ => true
  | .managementCoreStage => true
  | .timebaseStage _ _ _ => true
  | .managementPortStage _ _ => true
  | .memoryStage _ _ => true
  | .linkStage => true
  | .computeIslandStage _ _ => true
  | .timerefAbsent => true
  | .railWaitExpiry => true
  | .startFailed => true
  | .fuseprog _ _ _ _ => true
  | .bypass _ => true
  | .idcode _ => true
  | .samplePreload _ => true
  | .extest _ => true
  | .wrapperInstructions _ => true
  | .networkAccess1687 _ _ => true
  | .selftestSchedule => true
  | .selftestCheckpoint i _ => decide (i < 10)
  | .debugNonceExpiry part => decide (part < 10)
  | .debugLockoutEnd part => decide (part < 10)
  | .ringOscillatorTick => true
  | .ntePacketSend i => decide (i < 10)
  | .resetPhaseLimit part => decide (part < 10)
  | .engineResetLimit b eng => decide (b < 320) && decide (eng < 4)

end Sys2Proof
end

