-- ==== Sys2Proof/Tests/Slice0.lean ====
section
/-!
SUPPORT. Tests: terms that WellFormed refuses, single values and steps checked against the spec, and for every statement a state
and operands that meet the hypotheses of each clause, at the boundaries. A hypothesis that only the opaque cryptography could
meet (a digest or a signature that matches) has no witness: nothing evaluates it.
-/

namespace Sys2Proof.Tests
open Sys2Proof Sys2Proof.Machine

/-! ## States -/

/-- Cobble 0 in a block that is in service, in a powered island of partition 0. -/
def core (k : Cobble) : State :=
  { State.reset with
    cobs := [(0, k)], blks := [(0, { fence := false })], isls := [(0, { powered := true, own := 0x80000000#32 })] }

/-- A running cobble with two resident windows and code up to 4,096. -/
def run : Cobble := { run := .running, codelim := 4096, held := 2 }

/-- The same in the trap window. -/
def trapped : Cobble := { run with tw := true }

/-- A block in service. -/
def blkS (b : Block) : State := { core run with blks := [(0, { b with fence := false })] }

/-- A piazza's control cobble, and its slot. -/
def pzS (k : Cobble) (p : Slot) : State :=
  { core { k with pz := true } with slots := [(0, { p with active := true, lmb := 1 })] }

/-- A port. -/
def portS (p : Nat) (q : Port) : State := { core run with ports := [(p, q)] }

/-- Firmware runs, with an item in progress in a queue. -/
def fwS (q : Nat) (i : Item) : State := { core run with aon := { fw := 1 }, queues := [(q, [i])] }

/-- An item in progress: opcode, partition, the bytes from 32 on. -/
def item (op part : Nat) (body : List Byte) : Item :=
  { port := 10, seq := 7, tick := 0, started := true,
    bytes := [BitVec.ofNat 8 op, 1, 0, 0, 0, 0, 0, 0, BitVec.ofNat 8 part] ++ List.replicate 23 0 ++ body }

/-- A waiting register write at an offset of the control space. -/
def ctlWr (off val : Nat) : Acc := { kind := .wr, space := 3, off := off, size := 4, data := toBytes 4 val, mask := 15 }

/-! ## WellFormed refuses a number past the end of each kind of unit -/

/-- One term per check, each just past the last unit: cobble, block, bank, channel, cobble of a block, engine, counter, island,
slot, partition, router port, port, packet port, queue, queue pair, stream port, virtual channel (Table 01-1). -/
theorem test_wellFormed_refuses :
    [Instr.add 81920 false 1 2 3, .syncSet 320, .blockStoreBankService 0 64, .descriptorStart 0 16, .backgroundBankAccess 0 256,
      .engineWatchdog 0 4, .stepcntLoRead 0 8, .stepcntLoRead 10 0, .laneSleep 20, .resetPartition 10, .routerGrant 0 5 0,
      .train 172 true, .frameSend 12, .itemStart 11, .send 0 512, .rd 160, .packetEjection 0 6].any Instr.wellFormed = false := by
  decide

/-- The last unit of each kind is well formed. -/
theorem test_wellFormed_accepts :
    [Instr.add 81919 false 1 2 3, .syncSet 319, .blockStoreBankService 319 63, .descriptorStart 319 15,
      .backgroundBankAccess 319 255, .engineWatchdog 319 3, .stepcntLoRead 9 7, .laneSleep 19, .resetPartition 9, .routerGrant 319 4 0,
      .train 171 true, .frameSend 11, .itemStart 10, .send 9 511, .rd 159, .packetEjection 319 5].all Instr.wellFormed = true := by
  decide

/-! ## Single values against the spec -/

/-- A unit the die has not is a fault by name (Table 01-1). -/
theorem test_noSuchUnit : (match exec (.add 81920 false 1 2 3) State.reset with
    | .fault f => some f
    | _ => none) = some (.noSuchUnit "cobble" 81920) := by decide

/-- The opcode table gives its rows no bits. -/
theorem test_decodeTableWord : decodeTableWord 32 0 = none ∧ State.reset.withFetchWord 32 0 = State.reset := by decide
/-- R536: ADD.I of −1 to g2 = 1 writes 0 to g1, and the next instruction follows. -/
theorem test_addI : (match exec (.addI 0 1 2 0x3FFF) (core { run with ints := [(2, 1)] }) with
    | .next t => ((t.cob 0).int 1, (t.cob 0).pc)
    | _ => (1, 0)) = (0, 4) := by decide

/-- R537: 1.5 + 2.25 = 3.75 in FP64, exact. -/
theorem test_fadd : Fp.add Fp.fp64 .rne 0x3FF8000000000000 0x4002000000000000 = (0x400E000000000000, 0) := by decide +kernel

/-! ## Witnesses: each clause's hypotheses hold together in a concrete state -/

/-- Island 0 runs with its step counter at an ordinary value and at all ones; island 1 is off, island 2 is held. -/
theorem witness_EmptyQueueStepsIslands :
    let s : State := { core run with isls := [(0, { powered := true, cnt := [(0, 0xFFFFFFFFFFFFFFFF#64)] }),
      (2, { powered := true, brown := true })] }
    s.pending = [] ∧ (s.isl 0).powered = true ∧ (s.isl 0).brown = false ∧ (s.isl 0).counter 0 = BitVec.allOnes 64 ∧
    (s.isl 1).powered = false ∧ (s.isl 2).brown = true ∧ ((core run).isl 0).counter 0 = 0 := by decide

/-- An island steps: the counter of island 0 rises and a listed byte stays canonical. -/
theorem witness_StepKeepsMemoryCanonical :
    let s : State := { core run with mem := [(0, 1), (2 ^ 40, 255)] }
    Memory.wf s.mem = true ∧ (match step s with
      | .next t => decide (t.mem = s.mem ∧ (t.isl 0).counter 0 = 1)
      | _ => false) = true := by decide +kernel

/-- A canonical memory; a row that is poisoned and one with an upset of two bits. -/
theorem witness_MemoryWritesReachTheirBytesAndRows :
    Memory.wf [(5, 1#8), (7, 2#8)] = true ∧ canonFrom false 0 [(8, true)] = true ∧ canonFrom 0 0 [(4, 2)] = true := by decide

/-- Both windows of the register file, at the ends of TOP and MOVE; fields that name registers. -/
theorem witness_RegisterFieldsNameDistinctRegisters :
    let k : Cobble := { top := 4, move := 4 }
    k.top < 5 ∧ k.move < 5 ∧ k.tw = false ∧ trapped.tw = true ∧ trapped.top < 5 ∧ trapped.move < 5 ∧
    (regIdx k 39).isSome = true ∧ (regIdx trapped 55).isSome = true := by decide

/-- A ready cobble for three registers, among them g0; a zero and a nonzero divisor; a shift amount of 63. -/
theorem witness_IntegerArithmetic :
    let s := core { run with ints := [(1, 0x8000000000000000#64), (2, 0xFFFFFFFFFFFFFFFF#64)] }
    s.ready 0 [0, 1, 39] [] = true ∧ s.ready 0 [1, 2] [] = true ∧ (s.cob 0).int 3 = 0 ∧ (s.cob 0).int 2 ≠ 0 ∧
    (63#12).toNat < 64 := by decide

/-- A ready cobble; equal, smaller and larger operands. -/
theorem witness_ConstantsBranchesAndJumps :
    let s := core { run with ints := [(1, 1), (2, 0xFFFFFFFFFFFFFFFF#64)] }
    let k := s.cob 0
    s.ready 0 [39] [] = true ∧ s.ready 0 [1, 2] [] = true ∧ k.int 1 ≠ k.int 2 ∧ k.int 1 = k.int 1 ∧
    (k.int 2).toInt < (k.int 1).toInt ∧ (k.int 1).toNat < (k.int 2).toNat ∧ s.ready 0 [0, 1] [] = true := by decide

/-- HELD at 1, 3 and 4, TOP at 4, outside the trap window. -/
theorem witness_WindowsOpenCloseOverflowAndUnderflow :
    let s := fun h => core { run with held := h, top := 4 }
    (∀ h ∈ [1, 3, 4], ((s h).cob 0).tw = false ∧ ((s h).cob 0).top < 5 ∧ ((s h).cob 0).held < 5 ∧
      (s h).ready 0 [39, 1] [] = true ∧ (s h).ready 0 [23] [] = true ∧ (s h).ready 0 [] [] = true) ∧
    ((s 3).cob 0).held < 4 ∧ ((s 4).cob 0).held = 4 ∧ 1 < ((s 4).cob 0).held ∧ ((s 1).cob 0).held = 1 := by decide

/-- A core with nothing outstanding, one with a store in its buffer; an enabled interrupt pending, and none. -/
theorem witness_SystemControlCompletes :
    (let k := (core run).cob 0
     (core run).ready 0 [0] [] = true ∧ k.stbuf = [] ∧ k.loads = [] ∧ k.stores = [] ∧ k.deferred = [] ∧ k.pz = false ∧
       (31#14).toNat < 32 ∧ ((core run).dueBit 0).isSome = false) ∧
    (let s := core { run with stbuf := [{ off := 8192, size := 1, data := 0 }] }
     s.ready 0 [0] [] = true ∧ (s.cob 0).stbuf ≠ []) ∧
    (let s := core { run with ienable := 4, ipRsterr := true }
     s.ready 0 [0] [] = true ∧ (s.dueBit 0).isSome = true) := by decide

/-- A cobble outside and one inside the trap window; its partition with debug locked and unlocked. -/
theorem witness_TrapEntryReturnAndFatalTraps :
    (core run).ready 0 [0] [] = true ∧ ((core run).cob 0).tw = false ∧
    ((core run).partn ((core run).partOfBlk (blkOf 0))).debug = false ∧ (1#14).toNat < 2 ∧
    (let s := { core run with parts := [(0, { debug := true })] }
     s.ready 0 [0] [] = true ∧ (s.partn (s.partOfBlk (blkOf 0))).debug = true) ∧
    (let s := core trapped
     (s.cob 0).tw = true ∧ s.ready 0 [0, 1] [] = true ∧ s.ready 0 [] [] = true ∧ s.ready 0 [23] [] = true) := by decide

/-- A program counter past CODELIM and one not a multiple of 4; the reserved field 40; a register awaiting a load; a halted core. -/
theorem witness_IssueTrapsAndHolds :
    let busy := core { run with loads := [{ tag := 0, dest := .int 3, size := 8, signed := false, addr := 0, pc := 0, tw := false }] }
    (core { run with pc := 4096 }).canIssue 0 = true ∧ ((core { run with pc := 4096 }).cob 0).badFetch = true ∧
    ((core { run with pc := 2 }).cob 0).badFetch = true ∧ ((core { run with pc := 4092 }).cob 0).badFetch = false ∧
    regIdx ((core run).cob 0) 40 = none ∧ regIdx ((core run).cob 0) 39 ≠ none ∧
    busy.canIssue 0 = true ∧ (busy.cob 0).badFetch = false ∧ regIdx (busy.cob 0) 3 = some 3 ∧ (busy.cob 0).intBusy 3 = true ∧
    (core { run with halted := true }).canIssue 0 = false ∧ (core { run with halted := true }).cob 0 = { run with halted := true } := by
  decide

/-- RSTERR and TIMER pending and enabled with IE = 1; IE = 0; TW = 1; none pending; a deferred trap due in each window; a WAIT that
the timer ends. -/
theorem witness_InterruptsAndDeferredTrapsAreTaken :
    let d := fun (w : Bool) => Deferred.mk 6 8 0x8000000000000004#64 w
    (let s := core { run with ie := true, ienable := 15, ipRsterr := true }
     s.atBoundary 0 = true ∧ (s.cob 0).hold = .none ∧ (s.cob 0).deferred = [] ∧ (s.ipend 0 &&& (s.cob 0).ienable).getLsbD 2 = true ∧
     (s.ipend 0 &&& (s.cob 0).ienable).getLsbD 0 = false ∧ (s.ipend 0 &&& (s.cob 0).ienable).getLsbD 1 = false) ∧
    (let s := core { run with ie := true, ienable := 1, timecmp := 0 }
     s.atBoundary 0 = true ∧ (s.ipend 0 &&& (s.cob 0).ienable).getLsbD 0 = true) ∧
    (let s := core { run with ienable := 4, ipRsterr := true }
     s.atBoundary 0 = true ∧ (s.cob 0).ie = false) ∧
    (core trapped).atBoundary 0 = true ∧ (core run).ipend 0 &&& ((core run).cob 0).ienable = 0 ∧
    (let s := core { run with deferred := [d false] }
     s.atBoundary 0 = true ∧ (s.cob 0).tw = false) ∧
    (let s := core { trapped with deferred := [d true] }
     s.atBoundary 0 = true ∧ (s.cob 0).tw = true) ∧
    (let s := core { trapped with deferred := [d false] }
     s.atBoundary 0 = true ∧ ∀ e ∈ (s.cob 0).deferred, e.tw = false) ∧
    (let s := core { run with hold := .waitInt, ienable := 1, timecmp := 0 }
     (s.cob 0).hold = .waitInt ∧ (s.ipend 0).getLsbD 0 = true ∧ (s.cob 0).ienable.getLsbD 0 = true) ∧
    (let s := core { run with hold := .waitInt, ienable := 1 }
     s.ipend 0 &&& (s.cob 0).ienable = 0) := by decide

/-- FPCR, RSTADDR, PBCREC of a control cobble, a number outside the map, and a piazza register outside a piazza. -/
theorem witness_CsrReadsReturnAndClear :
    (core run).ready 0 [39, 0] [] = true ∧ ((core run).slotOf 0).fly = [] ∧ (core run).csrVal 0 0 = some 4 ∧
    (core run).csrVal 0 0x042 = some 0 ∧ (core run).csrVal 0 0xFFF = none ∧ ((core run).cob 0).pz = false ∧
    (let s := pzS run { mrow := 0 }
     s.ready 0 [39, 0] [] = true ∧ (s.slotOf 0).fly = [] ∧ (s.csrVal 0 0x093).isSome = true) := by decide

/-- A cobble whose TRBASE is a multiple of 2,048 and whose IENABLE has no PFAULT bit outside a piazza; in a piazza all four. -/
theorem witness_CsrWritesChangeWritableFieldsOnly :
    (core run).ready 0 [0, 39] [] = true ∧ ((core run).slotOf 0).fly = [] ∧ ((core run).cob 0).trbase &&& 0x7FF = 0 ∧
    ((core run).cob 0).ienable.getLsbD 3 = false ∧ (csrMasks false).all (fun e => ((core run).csrVal 0 e.1.toNat).isSome) = true ∧
    (let s := pzS { run with ienable := 15 } { vlr := 1 }
     s.ready 0 [0, 39] [] = true ∧ (s.slotOf 0).fly = [] ∧ (s.cob 0).pz = true ∧
     (csrMasks true).all (fun e => (s.csrVal 0 e.1.toNat).isSome) = true) := by decide

/-- The last byte and the last double-word of the scratchpad, in clean rows; a store-buffer entry that covers a load; a poisoned
row; addresses past the scratchpad and, within it, not aligned; the word below LMBASE of a control cobble. -/
theorem witness_PrivateLoads :
    (let s := core { run with ints := [(1, 16383), (2, 16376), (3, 16384), (4, 16381)] }
     s.ready 0 [39, 1] [] = true ∧ s.ready 0 [1] [39 - 8] = true ∧ (s.cob 0).stbuf = [] ∧ (s.cob 0).pz = false ∧
     ((s.cob 0).int 1).toNat < 2 ^ 14 ∧ ((s.cob 0).int 2).toNat % 8 = 0 ∧
     (∀ r ∈ rowsOf (scrAddr 0 16376) 8, lget false s.psn (rowOf r) = false ∧ lget 0 s.upset (rowOf r) = 0) ∧
     s.target 0 ((s.cob 0).int 3) false = .bad ∧ s.target 0 ((s.cob 0).int 4) false ≠ .bad ∧ ((s.cob 0).int 4).toNat % 2 ≠ 0) ∧
    (let e : StEntry := { off := 8192, size := 8, data := 0x8877665544332211#64 }
     let s := core { run with ints := [(1, 8196)], stbuf := [e] }
     s.ready 0 [39, 1] [] = true ∧ (s.cob 0).stbuf = [] ++ [e] ∧ e.covers 8196 4 = true ∧ 0 < e.size) ∧
    (let s := { core { run with ints := [(1, 8192)] } with psn := [(rowOf (scrAddr 0 8192), true)] }
     s.ready 0 [39, 1] [] = true ∧ (s.cob 0).stbuf = [] ∧ ∃ r ∈ rowsOf (scrAddr 0 8192) 4, lget false s.psn (rowOf r) = true) ∧
    (let s := pzS { run with ints := [(1, 4088)], plmbase := 4096 } { mrow := 0 }
     s.ready 0 [39, 1] [] = true ∧ (s.cob 0).pz = true ∧ 4088 < (s.cob 0).plmbase.toNat) := by decide

/-- Stores at CODELIM and at the last double-word, with 3 and with 4 entries in the buffer; below CODELIM, past the scratchpad,
and not aligned. -/
theorem witness_PrivateStores :
    let e : StEntry := { off := 8192, size := 8, data := 1 }
    (let s := core { run with ints := [(1, 4096), (2, 16376), (3, 4095), (4, 16384), (5, 4097)], stbuf := [e, e, e] }
     s.ready 0 [0, 1] [] = true ∧ s.ready 0 [1] [31] = true ∧ (s.cob 0).codelim ≤ ((s.cob 0).int 1).toNat ∧
     ((s.cob 0).int 2).toNat < 2 ^ 14 ∧ ((s.cob 0).int 2).toNat % 8 = 0 ∧ (s.cob 0).stbuf.length < 4 ∧ (s.cob 0).pz = false ∧
     s.target 0 ((s.cob 0).int 3) true = .bad ∧ s.target 0 ((s.cob 0).int 4) true = .bad ∧
     s.target 0 ((s.cob 0).int 5) true ≠ .bad ∧ ((s.cob 0).int 5).toNat % 2 ≠ 0) ∧
    (let s := core { run with ints := [(1, 4096)], stbuf := [e, e, e, e] }
     s.ready 0 [0, 1] [] = true ∧ (s.cob 0).stbuf = e :: [e, e, e] ∧ 4 ≤ (s.cob 0).stbuf.length ∧ Memory.wf s.mem = true) := by decide

/-- The last double-word of a block store below three cache quarters; a request in a bank; answers to a load and a store. -/
theorem witness_BlockStoreAccessesAreQueuedAndAnswered :
    (let s := { core { run with ints := [(1, 0x010000000007FFF8#64)] } with blks := [(0, { fence := false, nq := 3, nqNew := 3 })] }
     let off := 0x7FFF8
     s.ready 0 [39, 1] [] = true ∧ ((s.cob 0).int 1 + (0#12).signExtend 64).toNat = 2 ^ 56 + off ∧ off < cacheFrom (s.blk 0).nq ∧
     off % 8 = 0 ∧ s.pzActive 0 = false ∧ (s.blk 0).bankRoom off = true ∧ (s.blk 0).nq = (s.blk 0).nqNew ∧
     (s.cob 0).loads.length < 4 ∧ (s.cob 0).stores.length < 8) ∧
    (let a : Acc := { kind := .rd, space := 0, off := 8, size := 8 }
     let s := blkS { bankq := [(1, [a])] }
     (s.isl (islOfBlk 0)).brown = false ∧ canonFrom [] 0 (s.blk 0).bankq = true ∧ lget [] (s.blk 0).bankq 1 = a :: [] ∧
     a.remote = false ∧ a.sblk = 0 ∧ a.sport = 0 % 256 ∧ (s.cob 0).goneTags = [] ∧ (s.blk 0).gone = [] ∧ (s.cob 0).stores = [] ∧
     ∀ r ∈ rowsOf (bsAddr 0 a.off) a.size, lget false s.psn (rowOf r) = false ∧ lget 0 s.upset (rowOf r) = 0) ∧
    (∀ st ∈ [0, 3], let a : Ans := { sport := 0, tag := 5, status := st, data := [1, 2, 3, 4, 5, 6, 7, 8] }
     let l : PendLoad := { tag := 5, dest := .int 1, size := 8, signed := false, addr := 0, pc := 0, tw := false }
     let s := core { run with ans := [a], loads := [l] }
     (s.cob 0).hold = .none ∧ (s.cob 0).ans = a :: [] ∧ (s.cob 0).loads = [l] ∧ l.tag = a.tag) ∧
    (∀ st ∈ [0, 6], let a : Ans := { sport := 0, tag := 5, status := st }
     let s := core { run with stAns := [a], stores := [{ tag := 5, addr := 8 }] }
     (s.cob 0).stAns = [a] ∧ (s.cob 0).stores = [{ tag := 5, addr := 8 }]) := by decide

/-- A full and an empty word at CODELIM; addresses not aligned and below CODELIM. A wait that has and one that has not timed out, a
woken LDE, a woken wait on the own block store, a resend to block 1. -/
theorem witness_FullEmptyInstructionsAndWaits :
    (let s := core { run with ints := [(1, 4096), (2, 4098), (3, 4092)] }
     s.ready 0 [39, 1] [] = true ∧ (s.cob 0).pz = false ∧ (s.cob 0).stbuf = [] ∧ (s.cob 0).loads = [] ∧ (s.cob 0).stores = [] ∧
     (s.cob 0).deferred = [] ∧ (s.cob 0).codelim ≤ 4096 ∧ Memory.wf s.mem = true ∧ canonFrom false 0 s.fe = true ∧
     lget false s.psn (rowOf (scrAddr 0 4096)) = false ∧ lget 0 s.upset (rowOf (scrAddr 0 4096)) = 0 ∧
     s.feBit (scrAddr 0 4096) = false ∧ s.ready 0 [0, 1] [] = true ∧ 4098 % 4 ≠ 0 ∧ 4092 < (s.cob 0).codelim) ∧
    (let s := { core run with fe := [(scrAddr 0 4096 / 4, true)] }
     canonFrom false 0 s.fe = true ∧ s.feBit (scrAddr 0 4096) = true) ∧
    (∀ e ∈ [(10#64, 10), (10#64, 9), (0#64, 10)], let w : FeWait := { op := .lde, rd := 1, addr := 4096, tgt := 0, data := 0, start := 0, phase := 0 }
     let s := { core { run with hold := .fe w, fewait := e.1 } with ticks := e.2 }
     (s.cob 0).hold = .fe w ∧ s.coreUp 0 = true ∧ (s.cob 0).tw = false ∧ w.phase ≠ 2 ∧
     (w.start + (s.cob 0).fewait.toNat ≤ s.ticks ∨ s.ticks < w.start + (s.cob 0).fewait.toNat)) ∧
    (let w : FeWait := { op := .lde, rd := 1, addr := 4096, tgt := 0, data := 0, start := 0, phase := 1 }
     let s := { core { run with hold := .fe w } with fe := [(scrAddr 0 4096 / 4, true)] }
     (s.cob 0).hold = .fe w ∧ s.coreUp 0 = true ∧ s.feBit (scrAddr 0 (w.addr.toNat % 2 ^ 14)) = true ∧
     lget false s.psn (rowOf (scrAddr 0 4096)) = false ∧ Memory.wf s.mem = true ∧ canonFrom false 0 s.fe = true) ∧
    (let w : FeWait := { op := .stwe, rd := 1, addr := 0x0100000000000000#64, tgt := 1, data := 0, start := 0, phase := 1 }
     let s := core { run with hold := .fe w }
     (s.cob 0).hold = .fe w ∧ s.coreUp 0 = true ∧ s.pzActive (blkOf 0) = false ∧ (s.blk 0).bankRoom (w.addr.toNat % 2 ^ 21) = true ∧
     (s.blk 0).nq = (s.blk 0).nqNew) ∧
    (let w : FeWait := { op := .lde, rd := 1, addr := 0x0280000800000000#64, tgt := 2, data := 0, start := 0, phase := 3 }
     let s := core { run with hold := .fe w }
     (s.cob 0).hold = .fe w ∧ s.coreUp 0 = true ∧ s.target 0 w.addr true = .die 0 1 0 0 ∧ 1 ≠ blkOf 0) := by decide

/-- Both formats, the two reserved ones, and f registers up to f31. -/
theorem witness_ScalarFloatArithmetic :
    (0#2).toNat < 2 ∧ (1#2).toNat < 2 ∧ 2 ≤ (2#2).toNat ∧ 2 ≤ (3#2).toNat ∧ (core run).ready 0 [] [0, 31, 1, 2] = true ∧
    (core run).ready 0 [] [0, 1, 2, (31#5).setWidth 6] = true ∧ (core run).ready 0 [39] [31] = true ∧
    (core run).ready 0 [] [] = true := by decide

/-- Both formats; integer and f registers at the ends of their ranges. -/
theorem witness_FloatComparesMovesAndConversions :
    (1#2).toNat < 2 ∧ (core run).ready 0 [39] [0, 31] = true ∧ (core run).ready 0 [0] [31] = true ∧
    (core run).ready 0 [] [0, 31] = true := by decide

/-- A quiet and a signalling NaN, and two numbers, the largest code among them. -/
theorem witness_FloatComparisonsFollowIeee :
    0x7FC00000 < 2 ^ Fp.fp32.width ∧ (Fp.decode Fp.fp32 0x7FC00000).isNan = true ∧ (Fp.decode Fp.fp32 0x7FC00000).isSnan = false ∧
    (Fp.decode Fp.fp64 0x7FF0000000000001).isSnan = true ∧ (Fp.decode Fp.fp64 0xFFEFFFFFFFFFFFFF).isNan = false ∧
    (Fp.decode Fp.fp64 0).isNan = false ∧ 2 < 3 := by decide

/-- A cobble outside a piazza with its lane unit awake. -/
def awake : Cobble := { run with asleep := false }

/-- Every element type that is defined; alternate-format bits with an 8-bit type. -/
theorem witness_SvxArithmetic :
    svxReady (core awake) 0 [] [0, 7, 1, 2] ∧ svxReady (core awake) 0 [] [0, 0, 0] ∧ Fp.ofCode 0 = some Fp.fp64 ∧
    Fp.ofCode 6 ≠ none ∧ Fp.ofCode 4 = some Fp.v8 ∧ Fp.ofCode 5 = some Fp.g8 ∧ (7#7).toNat < 8 := by
  unfold svxReady; decide

/-- A narrowing to the last part, a widening from the last part, the two complex types, an even vd, the last element. -/
theorem witness_SvxMovesAndConversions :
    svxReady (core awake) 0 [] [7, 0, 1, 2] ∧ svxReady (core awake) 0 [] [6, 6 + 1, 0] ∧ (6#3).toNat % 2 = 0 ∧
    Fp.ofCode 0 = some Fp.fp64 ∧ Fp.ofCode 4 = some Fp.v8 ∧ Fp.v8.width < Fp.fp64.width ∧
    (7#3).toNat < Fp.fp64.width / Fp.v8.width ∧ (core awake).ready 0 [39] (vregs [7]) = true ∧
    (core awake).ready 0 [] (vregs [7] ++ [31]) = true ∧ (core awake).ready 0 [] (0 :: vregs [7]) = true ∧
    (31#6).toNat < 256 / Fp.v8.width := by
  unfold svxReady; decide

/-- The largest 256-bit value, an element of each end, widths of 4 and 64. -/
theorem witness_VectorElementsAreIndependent :
    2 ^ 256 - 1 < 2 ^ 256 ∧ 3 < 4 ∧ 31 / 4 ≠ 0 ∧ 0 < 4 ∧ 63 < 64 := by decide

/-- The last 32 bytes of the scratchpad, clean and poisoned; a store in the buffer; past the scratchpad; below CODELIM; not aligned. -/
theorem witness_VectorLoadsAndStores :
    (let s := core { run with ints := [(1, 16352), (2, 16384), (3, 4064), (4, 4112)] }
     s.ready 0 [1] (vregs [7]) = true ∧ (s.cob 0).pz = false ∧ ((s.cob 0).int 1).toNat < 2 ^ 14 ∧ ((s.cob 0).int 1).toNat % 32 = 0 ∧
     (s.cob 0).stbuf = [] ∧ (∀ r ∈ rowsOf (scrAddr 0 16352) 32, lget false s.psn (rowOf r) = false ∧ lget 0 s.upset (rowOf r) = 0) ∧
     (s.cob 0).codelim ≤ ((s.cob 0).int 1).toNat ∧ Memory.wf s.mem = true ∧ 2 ^ 14 ≤ ((s.cob 0).int 2).toNat ∧
     ((s.cob 0).int 3).toNat < (s.cob 0).codelim ∧ (s.cob 0).codelim ≤ ((s.cob 0).int 4).toNat ∧ ((s.cob 0).int 4).toNat % 32 ≠ 0) ∧
    (let s := { core { run with ints := [(1, 4096)] } with psn := [(rowOf (scrAddr 0 4124), true)] }
     s.ready 0 [1] (vregs [7]) = true ∧ ∃ r ∈ rowsOf (scrAddr 0 4096) 32, lget false s.psn (rowOf r) = true) ∧
    (let s := core { run with ints := [(1, 4096)], stbuf := [{ off := 8192, size := 1, data := 0 }] }
     s.ready 0 [1] (vregs [7]) = true ∧ (s.cob 0).stbuf ≠ []) := by decide

/-- The tile in both accumulator formats; a control cobble; a lane unit asleep, waking, kept awake. -/
theorem witness_SmallTilesAndLaneUnit :
    (core awake).ready 0 [] (vregs [6, 6 + 1]) = true ∧ ((core awake).cob 0).pz = false ∧ (6#3).toNat % 2 = 0 ∧
    (core awake).ready 0 [] (vregs [0, 7]) = true ∧ ((core awake).cob 0).acc64 = false ∧ Fp.ofCode 1 = some Fp.fp32 ∧
    ((core { awake with acc64 := true }).cob 0).acc64 = true ∧
    (let s := pzS run { mrow := 0 }
     s.ready 0 [] (vregs [6, 6 + 1]) = true ∧ s.ready 0 [] (vregs [0, 7]) = true ∧ s.ready 0 [] (vregs [0, 0, 7]) = true ∧
     (s.cob 0).pz = true) ∧
    (core run).ready 0 [] (vregs [0, 0, 7]) = true ∧ ((core run).cob 0).asleep = true ∧ (core run).coreUp 0 = true ∧
    ((core { run with waking := true }).cob 0).waking = true ∧ ((core awake).cob 0).awakeReq = false ∧
    ((core { awake with awakeReq := true }).cob 0).awakeReq = true := by decide

/-- Outside a piazza; in one with 16 instructions in flight, with a matrix operation, with a writer of a tile that is read; lanes
asleep and nothing in flight; slot 19 whose instruction ends. -/
theorem witness_PiazzaIssueFlightAndCountEnd :
    (core run).ready 0 [] [] = true ∧ (core run).ready 0 [1, 2, 39] [] = true ∧ ((core run).cob 0).pz = false ∧
    (core run).ready 0 [] (PUse.fps { tiles := [0, 31], outTiles := [5] }) = true ∧
    (let s := pzS run { fly := [{ engine := 1, use := { outTiles := [3] } }, { engine := 0, use := { acc := .matrix } }] }
     s.ready 0 [] [] = true ∧ s.canIssue 0 = true ∧ (s.cob 0).badFetch = false ∧ (s.cob 0).pz = true ∧
     (∃ f ∈ (s.slotOf 0).fly, f.use.acc = .matrix) ∧ ∃ f ∈ (s.slotOf 0).fly, 3 ∈ f.use.outTiles) ∧
    (let s := pzS run { fly := List.replicate 16 { engine := 0 } }
     s.ready 0 [] [] = true ∧ (s.cob 0).pz = true ∧ 16 ≤ (s.slotOf 0).fly.length) ∧
    (let s := pzS run { mrow := 0 }
     pzReady s 0 [] { tiles := [0, 1], outTiles := [31] } ∧ (s.slotOf 0).asleep = true ∧ (s.slotOf 0).fly = []) ∧
    (let s := { State.reset with slots := [(19, { fly := [{ engine := 2, flags := 1 }] })] }
     19 < 20 ∧ (lget ({} : Slot) s.slots 19).fly[0]? = some { engine := 2, flags := 1 } ∧
     (s.cob (ctlCobble 19)).hold ≠ .waitInt) := by
  unfold pzReady; decide

/-- Scale bases that are and are not multiples of 8; ranges at 0 to 256, reversed, past 256; lengths at and past their ends. -/
theorem witness_PiazzaSettings :
    let s := pzS { run with ints := [(1, 8), (2, 4), (3, 256), (4, 257), (5, 64), (6, 512), (7, 513), (8, 65)] } { waking := true }
    pzReady s 0 [1] {} ∧ ((s.cob 0).int 1).toNat % 8 = 0 ∧ ((s.cob 0).int 2).toNat % 8 ≠ 0 ∧ pzReady s 0 [0, 3] {} ∧
    ((s.cob 0).int 0).toNat ≤ ((s.cob 0).int 3).toNat ∧ ((s.cob 0).int 3).toNat ≤ 256 ∧ ((s.cob 0).int 2).toNat < ((s.cob 0).int 1).toNat ∧
    256 < ((s.cob 0).int 4).toNat ∧ ((s.cob 0).int 5).toNat ≤ 64 ∧ ((s.cob 0).int 6).toNat ≤ 512 ∧ 64 < ((s.cob 0).int 8).toNat ∧
    512 < ((s.cob 0).int 7).toNat ∧ (lget ({} : Slot) s.slots 0).waking = true := by
  unfold pzReady; decide

/-- Lengths 64 and 65,536 and the wrong ones 32, 65 and 65,600; bases aligned and not; a span that ends at the store's end and one past it;
an accumulator address at the end of lane memory, past it, and not a multiple of 8. -/
theorem witness_MatrixOperationsRun :
    let s := pzS { run with ints := [(1, 64), (2, 65536), (3, 65), (4, 65600), (5, 1024), (6, 33554432), (7, 15296), (8, 15304), (9, 4),
      (10, 33488896)] } { mrow := 0 }
    let o : MatOp := { fa := Fp.fp32, fb := Fp.fp32, k := 64, a := 33488896, b := 0, acc64 := false, zero := false }
    pzReady s 0 [1, 5, 6] { acc := .matrix } ∧ pzReady s 0 [] { acc := .writes } ∧ pzReady s 0 [7] { acc := .writes } ∧
    pzReady s 0 [7] { acc := .reads } ∧
    (∀ r ∈ [1, 2], ((s.cob 0).int r).toNat % 64 = 0 ∧ 64 ≤ ((s.cob 0).int r).toNat ∧ ((s.cob 0).int r).toNat ≤ 65536) ∧
    ((s.cob 0).int 3).toNat % 64 ≠ 0 ∧ 65536 < ((s.cob 0).int 4).toNat ∧ ((s.cob 0).int 0).toNat < 64 ∧
    ((s.cob 0).int 5).toNat % 1024 = 0 ∧ ((s.cob 0).int 1).toNat % 1024 ≠ 0 ∧ 33554432 < ((s.cob 0).int 6).toNat + o.spanA ∧
    ((s.cob 0).int 10).toNat % 1024 = 0 ∧ ((s.cob 0).int 10).toNat + o.spanA ≤ 33554432 ∧ 0 + o.spanB ≤ 33554432 ∧
    o.scaled = false ∧ ({ o with sca := true } : MatOp).scaled = true ∧ (s.slotOf 0).mscb.toNat + 64 / 4 ≤ (s.slotOf 0).lmSize ∧
    Fp.ofCode 1 = some Fp.fp32 ∧ ((s.cob 0).int 7).toNat % 8 = 0 ∧ ((s.cob 0).int 7).toNat + 64 ≤ (s.slotOf 0).lmSize ∧
    ((s.cob 0).int 8).toNat % 8 = 0 ∧ (s.slotOf 0).lmSize < ((s.cob 0).int 8).toNat + 64 ∧ ((s.cob 0).int 9).toNat % 8 ≠ 0 := by
  unfold pzReady; decide

/-- The last lane of a piazza, its last output position and the next one. -/
theorem witness_MatrixMasksProtectOutputs :
    let o : MatOp := { fa := Fp.fp32, fb := Fp.fp32, k := 64, a := 0, b := 0, acc64 := false, zero := true }
    o.acc64 = false ∧ 4095 < 4096 ∧ 15 < 16 ∧ 16 ≤ 16 := by decide

/-- The last accumulator address of lane memory, with no wave committed. -/
theorem witness_AccumulatorsStoreToLaneMemory :
    let s := pzS { run with ints := [(7, 15296)] } { mrow := 0 }
    pzReady s 0 [7] { acc := .reads } ∧ pzReady s 0 [7] { acc := .writes } ∧ Memory.wf s.mem = true ∧ ((s.cob 0).int 7).toNat % 8 = 0 ∧
    ((s.cob 0).int 7).toNat + 64 ≤ (s.slotOf 0).lmSize ∧ s.committed (slotOfBlk (blkOf 0)) = [] := by
  unfold pzReady; decide

/-- The last element of an FP64 tile and the column past it, lanes awake. -/
theorem witness_TileMoves :
    let s := pzS { run with ints := [(1, 0x3F003F#64), (2, 0x400000#64)] } { asleep := false }
    pzReady s 0 [39, 1] { tiles := [31], rd := some 39 } ∧ pzReady s 0 [39, 1] { outTiles := [31] } ∧
    pzReady s 0 [1] { outTiles := [0] } [31] ∧ pzReady s 0 [1] { tiles := [0], outTiles := [31] } [31] ∧
    pzReady s 0 [39] { tiles := [1, 2], outTiles := [31], rd := some 39 } ∧ (s.slotOf 0).asleep = false ∧
    elCol ((s.cob 0).int 1) < tyCols 0 ∧ tyCols 0 ≤ elCol ((s.cob 0).int 2) ∧ 63 < 64 := by
  unfold pzReady; decide

/-- A band of the whole tile with one row and column active, at the end of the piazza store and past it; a base and a stride that are
not aligned; lane memory at its end and past it. -/
theorem witness_TileLoadsAndStores :
    let s := pzS { run with ints := [(1, 33554428), (2, 33554432), (3, 2), (4, 4), (5, 15356), (6, 15360)] } { vlr := 1, vlc := 1 }
    let p := s.slotOf 0
    pzReady s 0 [1, 4] { outTiles := [31] } ∧ pzReady s 0 [1, 4] { tiles := [31] } ∧ pzReady s 0 [5] { tiles := [0], outTiles := [31] } ∧
    pzReady s 0 [5] { tiles := [31, 0] } ∧ bandRows 1 4 = some (0, 64) ∧ (s.slotOf 0).vlc % 2 = 1 ∧ (1 : BitVec 3) ≠ 6 ∧
    p.bandLanes 1 0 64 = [0] ∧ ((s.cob 0).int 3).toNat % 4 ≠ 0 ∧ ((s.cob 0).int 1).toNat % 4 = 0 ∧ ((s.cob 0).int 4).toNat % 4 = 0 ∧
    (∀ l ∈ p.bandLanes 1 0 64, ((s.cob 0).int 1).toNat + l / 64 * 4 + 4 * (l % 64) + 4 ≤ 33554432) ∧
    (∃ l ∈ p.bandLanes 1 0 64, 33554432 < ((s.cob 0).int 2).toNat + l / 64 * 4 + 4 * (l % 64) + 4) ∧
    ((s.cob 0).int 5).toNat + 4 ≤ p.lmSize ∧ p.lmSize < ((s.cob 0).int 6).toNat + 4 := by
  unfold pzReady; decide +kernel

/-- An addition of FP32 tiles with the lanes awake. -/
theorem witness_TopWritesActiveElements :
    let s := pzS run { asleep := false }
    pzReady s 0 [] { tiles := [0, 1], outTiles := [31] } ∧ (s.slotOf 0).asleep = false ∧ topOp (0#5).toNat = true ∧ opTyOk (0#5).toNat 1 = true ∧ 63 < tyCols 1 := by
  unfold pzReady; decide

/-- A descriptor at the last 64 bytes below LMBASE, past them, not aligned; an invalid and a valid slot without scalar sources; a narrowing
and a widening that Table 10-6 allows. -/
theorem witness_ChainsConversionsAndReductions :
    let s := pzS { run with ints := [(1, 960), (2, 1024), (3, 32)] } { asleep := false }
    pzReady s 0 [1, 0] { outChain := some 15 } ∧ (15#6).toNat < 16 ∧ ((s.cob 0).int 1).toNat % 64 = 0 ∧ ((s.cob 0).int 1).toNat + 64 ≤ (s.slotOf 0).lmbase ∧
    (s.slotOf 0).lmbase < ((s.cob 0).int 2).toNat + 64 ∧ ((s.cob 0).int 3).toNat % 64 ≠ 0 ∧ (s.cob 0).stbuf = [] ∧
    (∀ r ∈ rowsOf (scrAddr 0 960) 64, lget false s.psn (rowOf r) = false ∧ lget 0 s.upset (rowOf r) = 0) ∧
    pzReady s 0 [] { tiles := [0, 1], outTiles := [29, 30, 31] } ∧ (lget ({} : ChainSlot) (s.slotOf 0).chains 15).valid = false ∧
    pzReady s 0 [] { stagesUse (stagesOf (ofBytes (lget ({} : ChainSlot) (s.slotOf 0).chains 15).desc)) with chain := some 15 } ∧
    usedX (ofBytes (lget ({} : ChainSlot) (s.slotOf 0).chains 15).desc) = [] ∧
    (let u := pzS run { asleep := false, chains := [(15, { valid := true })] }
     pzReady u 0 [] { stagesUse (stagesOf 0) with chain := some 15 } ∧ (lget ({} : ChainSlot) (u.slotOf 0).chains 15).valid = true) ∧
    cvtbOk (s.slotOf 0) 1 0 28 0 1 = true ∧ (29#5).toNat ≤ 29 := by
  unfold pzReady; decide

/-- Trees of 2^0 and of 2^1 leaves; a leaf of the largest 32-bit value. -/
theorem witness_ReductionTrees :
    [some (0, (0 : Fp.Flags))].length = 2 ^ 0 ∧ [1, 0xFFFFFFFF].length = 2 ^ 1 ∧ ∀ x ∈ [1, 0xFFFFFFFF], x < 2 ^ 32 := by decide

/-- A state of block 0 runs its stages. -/
theorem witness_staged : (core run).staged 0 := by unfold State.staged; decide

/-- An access that the last window admits at its last byte, with a plain and an FE access to the block store, to a scratchpad and in a
piazza; one that no window admits, with the violation registers empty and full; WINn_CTL writes that open, are refused, close, change; a close
that waits and one that does not; an admitted access at a bank with and without room, a granted one, one of two rows, one to a scratchpad. -/
theorem witness_RemoteAccessesNeedAWindow :
    let ctl : BitVec 32 := 0x80F70000#32
    let k : Block := { winCtl := [(31, ctl)], winBase := [(31, 0x1000)], winLimit := [(31, 0x1007)], winAlloc := 32 }
    let a : Acc := { kind := .wr, space := 0, off := 0x1000, size := 8, mask := 255, remote := true, sclass := 3, sdie := 63 }
    (let s := blkS { k with remoteIn := [a] }
     s.staged 0 ∧ (s.blk 0).remoteIn = a :: [] ∧ s.admits 0 a = true ∧ s.pzActive 0 = false ∧ a.space ≠ 1 ∧ (s.blk 0).bankRoom a.off = true ∧
     (s.blk 0).waitq.any (·.remote) = false ∧ a.single 3 = true ∧ s.admits 0 { a with kind := .fe .lde, size := 4 } = true) ∧
    ((blkS { remoteIn := [a], bankq := [(0, List.replicate 33 a)] }).blk 0).bankRoom a.off = false ∧
    ((blkS { waitq := [a] }).blk 0).waitq.any (·.remote) = true ∧ ({ a with granted := true } : Acc).granted = true ∧
    (let x : Acc := { a with off := 0x1004 }
     x.single 3 = false ∧ x.rows 3 ≠ []) ∧
    (let s := blkS { k with winCtl := [(0, 0xA0F7FF00#32)], winBase := [(0, 4096)], winLimit := [(0, 16383)] }
     let x : Acc := { a with kind := .rd, space := 1, cob := 255, off := 16376 }
     s.admits 0 x = true ∧ s.pzActive 0 = false ∧ x.single 2 = false ∧ x.rows 2 ≠ [] ∧ ({ x with size := 4 } : Acc).single 2 = true) ∧
    (let s := { blkS k with slots := [(0, { active := true })] }
     s.admits 0 a = true ∧ s.pzActive 0 = true ∧ a.off % 16 + a.size ≤ 16) ∧
    (∀ n ∈ [0, 0xFFFF0000], let s := blkS { k with remoteIn := [{ a with off := 0x1001 }], wvstat := BitVec.ofNat 32 n }
     s.admits 0 { a with off := 0x1001 } = false ∧ a.granted = false ∧ a.sclass < 4 ∧ a.sdie < 64) ∧
    (let w := ctlWr 0x11F0 0x80170000
     let s := blkS { k with winCtl := [], ctlIn := [w] }
     (s.blk 0).ctlIn = w :: [] ∧ w.winCtl = true ∧ winOpen (lget 0 (s.blk 0).winCtl w.winNo) = false ∧ bit w.val 31 = true ∧
     w.winNo < (s.blk 0).winAlloc ∧ (s.setBlk 0 { s.blk 0 with ctlIn := [] }).winOk 0 w.winNo (b32 (w.val &&& winCtlMask)) = true) ∧
    (let w := ctlWr 0x11F0 0x80170000
     let s := blkS { k with winCtl := [], ctlIn := [w], winAlloc := 31 }
     w.winCtl = true ∧ winOpen (lget 0 (s.blk 0).winCtl w.winNo) = false ∧ ¬ w.winNo < (s.blk 0).winAlloc) ∧
    (∀ v ∈ [0x00F70000, 0x00F70001], let w := ctlWr 0x11F0 v
     let s := blkS { k with ctlIn := [w] }
     w.winCtl = true ∧ winOpen (lget 0 (s.blk 0).winCtl w.winNo) = true ∧ bit w.val 31 = false ∧ w.winNo < (s.blk 0).winAlloc ∧
     (b32 (w.val &&& winCtlMask) = lget 0 (s.blk 0).winCtl w.winNo &&& 0x7FFFFFFF#32 ↔ v = 0x00F70000)) ∧
    (let c : Closing := { acc := ctlWr 0x11F0 0, before := 1 }
     (blkS { closing := [c] }).staged 0 ∧ ((blkS { closing := [c] }).blk 0).closing = c :: [] ∧
     ((blkS { closing := [c] }).blk 0).admitted 1 = false ∧ ((blkS { closing := [c], bg := [a] }).blk 0).admitted 1 = true) := by
  unfold State.staged; decide +kernel

/-- Two requesters and the scrub at a bank of cobble 255, and nobody; no external access and one, to clean rows and to a poisoned one; a
remote FE store to an empty and a full word at the head of a block-store bank, and one at a scratchpad bank whose turn it is; rows that wait
for a correction and for their poison at an idle bank and at a busy one; scrubs switched on and off, a due row without errors, with an upset
of one and of two bits, poisoned, the last bank; a starved bank; CE_RATE due. -/
theorem witness_BanksCorrectionPoisonAndScrub :
    let a : Acc := { kind := .rd, space := 1, cob := 255, off := 8192, size := 4, sport := 257 }
    (let s := blkS { bg := [{ a with remote := true }, a], scrubDue := [1084] }
     s.staged 0 ∧ (s.blk 0).bgTurn 1084 = some 0 ∧ ((blkS {}).blk 0).bgTurn 1084 = none ∧
     ((blkS { scrubDue := [1084] }).blk 0).bgTurn 1084 = some 3) ∧
    ((core run).committed 0 = [] ∧ ({ core run with blks := [(0, { fence := false, ext := [a] })] } : State).committed 0 = [(0, a)] ∧
     a.kind = .rd) ∧
    (∀ f ∈ [[], [(bsAddr 0 8192 / 4, true)]], let x : Acc := { a with space := 0, remote := true, kind := .fe .stwe, data := [1, 2, 3, 4] }
     let s := { blkS { bankq := [(0, [x])] } with fe := f }
     (s.blk 0).bankq.find? (fun e => e.2.head?.any Acc.remoteFe) = some (0, x :: []) ∧ x.kind = .fe .stwe ∧ x.space = 0 ∧
     (s.blk 0).waitq = [] ∧ canonFrom [] 0 (s.blk 0).bankq = true ∧ Memory.wf s.mem = true ∧ canonFrom false 0 s.fe = true ∧
     x.data.length = 4 ∧ (FeOp.stwe.ready (s.feBit (bsAddr 0 x.off)) = true ↔ f = [])) ∧
    (let x : Acc := { a with remote := true, kind := .fe .lde }
     let k := (blkS { bg := [x] }).blk 0
     k.bankq.find? (fun e => e.2.head?.any Acc.remoteFe) = none ∧ x.remoteFe = true ∧ k.bgTurn 1084 = some 2 ∧ k.bgHead 1084 2 = some x) ∧
    (let s := { core run with corr := [bsBase], poisonDue := [bsBase + 8] }
     bsBase ∈ s.corr ∧ s.bankIdle bsBase = true ∧ bsBase + 8 ∈ s.poisonDue ∧ s.bankIdle (bsBase + 8) = true ∧
     (blkS { bankq := [(0, [a])] }).bankIdle bsBase = false) ∧
    ((core run).bankIdle (bankRow 0 0 0) = true ∧ ((blkS { scrubDue := [1087] }).blk 0).bgTurn 1087 = some 3) ∧
    (1087 < 1088 ∧ ((blkS { scrubctl := 0x1C }).blk 0).scrubctl.getLsbD 4 = true ∧ ((blkS { scrubctl := 0xC }).blk 0).scrubctl.getLsbD 4 = false) ∧
    (∀ u ∈ [0, 1, 2], let s := { blkS { scrubDue := [1087], scrubPos := [(1087, 1023)] } with upset := [(rowOf (bankRow 0 1087 1023), u)] }
     1087 ∈ (s.blk 0).scrubDue ∧ lget 0 (s.blk 0).scrubPos 1087 < bankRows 1087 ∧
     lget 0 s.upset (rowOf (bankRow 0 1087 1023)) = u ∧ lget false s.psn (rowOf (bankRow 0 1087 1023)) = false) ∧
    (lget false ({ core run with psn := [(rowOf (bankRow 0 0 0), true)] } : State).psn (rowOf (bankRow 0 0 0)) = true) ∧
    (1087 ∉ ((blkS { starved := [0] }).blk 0).starved ∧ 0 ∈ ((blkS { starved := [0] }).blk 0).starved) ∧
    ((blkS { ceDue := true }).blk 0).ceDue = true ∧ ((blkS { ceDue := false }).blk 0).ceDue = false := by
  unfold State.staged; decide +kernel

/-- CACHEOP writes of each operation, for an object of the partition and of none, while BUSY and not, with a line inside and one outside the
range; CACHECTL writes of a wrong NQ, the same NQ and another; the end of an operation with and without write-backs; a fill that is
answered OK and one that is not. -/
theorem witness_CacheOperations :
    let s0 := fun (k : Block) => { blkS k with isls := [(0, { powered := true, own := 0x80000000#32, sbind := [(0, 0xC0000000#32)] })] }
    let line : CLine := { valid := 1, dirty := 1, data := List.replicate 256 0 }
    (∀ op ∈ [0, 1, 2, 3], let a := ctlWr 0x1304 (op * 2 ^ 29)
     let s := s0 { ctlIn := [a], nq := 1, nqNew := 1, cbase := 256, climit := 511, lines := [(0, line), (32, line), (64, line)] }
     s.staged 0 ∧ (s.blk 0).ctlIn = a :: [] ∧ a.writes 0x1304 = true ∧ s.engOff 0 2 = false ∧ s.ownObj 0 (a.val % 2 ^ 13) = true ∧
     s.ownObj 0 8191 = false ∧ (s.blk 0).cacheBusy = false ∧ (s.fillPort 0).isSome = true ∧ bits a.val 29 2 = op ∧
     ((s.blk 0).lines.map (·.1)).Pairwise (· < ·) ∧ ((s0 { cacheBusy := true }).blk 0).cacheBusy = true ∧ bit a.val 31 = false ∧
     cAddr 0 line < (s.blk 0).cbase.toNat / 256 * 256 ∧ cAddr 32 line = (s.blk 0).cbase.toNat / 256 * 256 ∧
     (s.blk 0).climit.toNat / 256 * 256 < cAddr 64 line) ∧
    (∀ v ∈ [5, 4, 0], let a := ctlWr 0x1300 v
     let s := s0 { ctlIn := [a], nq := 4, nqNew := 4 }
     a.writes 0x1300 = true ∧ (s.blk 0).cacheBusy = false ∧ (4 < a.val % 8 ↔ v = 5) ∧ s.pzActive 0 = false ∧
     (s.fillPort 0).isSome = true ∧ ((core run).fillPort 0) = none ∧
     ¬ ((s.blk 0).nq < a.val % 8 ∧ (s.blk 0).winAbove (cacheFrom (a.val % 8)) = true ∧ v ≠ 5) ∧ (a.val % 8 = (s.blk 0).nq ↔ v = 4)) ∧
    (let m : CMiss := { acc := ctlWr 0 0, addr := 0, wb := true, tag := 1 }
     let s := s0 { cacheBusy := true, misses := [m] }
     (s.blk 0).cacheBusy = true ∧ s.engOff 0 2 = false ∧ s.aon.susp = [] ∧ (s.blk 0).cacheStuck = false ∧ (s.blk 0).cacheUsed.length < 256 ∧
     (s.blk 0).misses.any (·.wb) = true) ∧
    (∀ n ∈ [0, 4], let s := s0 { cacheBusy := true, nq := 0, nqNew := n }
     (s.blk 0).misses.any (·.wb) = false ∧ ((s.blk 0).nq = (s.blk 0).nqNew ↔ n = 0) ∧ (s.blk 0).nqNew ≤ 4) ∧
    (∀ st ∈ [0, 28], let a : Ans := { sport := 259, tag := 3, status := st }
     let m : CMiss := { acc := { kind := .rd, space := 4, off := 0, size := 8 }, addr := 0, wb := false, tag := 3 }
     let s := s0 { engAns := [a], misses := [m] }
     (s.blk 0).engAns.find? (fun a => a.sport = 259) = some a ∧ (s.blk 0).misses.find? (fun m => !m.wb && m.cmd.isNone && m.tag = a.tag) = some m) := by
  unfold State.staged; decide +kernel

/-- Two SETs, an ADD that overflows and one that does not, and a READ of the last object in one step; a release's ADD and a host signal's. -/
theorem witness_SyncObjectsTakeOperationsInOrder :
    let a : Acc := { kind := .wr, space := 2, off := 0xF0, size := 4, data := toBytes 4 1, mask := 15 }
    (let s := blkS { syncIn := [a, { a with sport := 1 }], syncN := 2 }
     s.staged 0 ∧ (s.blk 0).nextSync 0 = some { a with sport := 1 }) ∧
    (∀ v ∈ [0x7FFFFFFE, 0x7FFFFFFF], let x : Acc := { a with off := 0xF4 }
     let s := blkS { syncIn := [x], syncN := 1, sync := [(15, BitVec.ofNat 32 v)] }
     (s.blk 0).nextSync 1 = some x ∧ x.syncObj = 15 ∧ (syncValue (lget 0 (s.blk 0).sync 15) + x.val % 2 ^ 31 < 2 ^ 31 ↔ v = 0x7FFFFFFE)) ∧
    (let x : Acc := { a with kind := .rd, data := [] }
     (blkS { syncIn := [x], syncN := 1 }).staged 0 ∧ ((blkS { syncIn := [x], syncN := 1 }).blk 0).nextSync 2 = some x) ∧
    (relAcc 0 15).sport = spRelease ∧ a.sport ≠ spRelease ∧ a.sport ≠ spSignal ∧
    ((blkS { sigs := [(3, { port := 0, msg := [] })] }).blk 0).sigs.find? (fun e => e.1 == 3) = some (3, { port := 0, msg := [] }) := by
  unfold State.staged; decide +kernel

/-- A watch on an own object, on one that does not exist, on another block's while its withdrawal is and is not out; registrations that are
met, not met, refused for tenant and for want of an entry; wakes in and out of date. -/
theorem witness_WatchesAreArmedMetAndWithdrawn :
    (core run).coreUp 0 = true ∧ (core run).watchAway 0 = false ∧ (15#13).toNat / 16 = blkOf 0 ∧ (8191#13).toNat / 16 ≠ blkOf 0 ∧
    ¬ (8191#13).toNat / 16 < nBlocks ∧
    (∀ n ∈ [0, 1], let s := core { run with swState := 1, swHeld := some { cid := 0, obj := 16, target := 5, aseq := 1 }, swOut := n == 1 }
     s.coreUp 0 = true ∧ s.watchAway 0 = true ∧ ((s.cob 0).swOut = true ↔ n = 1) ∧ (s.cob 0).swHeld.isSome = true) ∧
    ({ core run with blks := [(0, { fence := false }), (1, { fence := false })] } : State).samePart 0 1 = true ∧
    ((blkS { syncN := 1 }).blk 0).syncN ≠ 0 ∧ ((blkS {}).blk 0).syncN = 0 ∧
    (0 ∈ ((blkS { wdAcks := [0] }).blk (blkOf 0)).wdAcks) ∧
    (∀ v ∈ [4, 5], let w : Watch := { cid := 0, obj := 15, target := 5, aseq := 1 }
     let s := blkS { watchIn := [(w, true, 0)], sync := [(15, BitVec.ofNat 32 v)] }
     s.staged 0 ∧ (s.blk 0).watchIn = (w, true, 0) :: [] ∧ (0 : BitVec 16) = s.tenantOf 0 ∧ (1 : BitVec 16) ≠ s.tenantOf 0 ∧
     (s.blk 0).fence = false ∧ (s.blk 0).rstFence = false ∧ ¬ 32 ≤ (s.blk 0).rwatch.length ∧
     (w.target ≤ syncValue (lget 0 (s.blk 0).sync (w.obj % 16)) ↔ v = 5) ∧
     32 ≤ ((blkS { rwatch := List.replicate 32 w }).blk 0).rwatch.length) ∧
    (∀ q ∈ [1, 2], let w : Watch := { cid := 0, obj := 15, target := 5, aseq := q }
     let s := { core { run with swState := 1, aseq := 1 } with blks := [(0, { fence := false, wakes := [(w, false)] })] }
     (s.blk (blkOf 0)).wakes.find? (fun x => x.1.cid = 0) = some (w, false) ∧ (s.cob 0).swState = 1 ∧ (w.aseq = (s.cob 0).aseq ↔ q = 1) ∧
     (s.cob 0).hold ≠ .waitInt) := by
  unfold State.staged; decide +kernel

/-- Arrivals below EXPECT, early, and one too many; a block with its parent, arrived and not; a root whose whole partition has arrived. -/
theorem witness_BarrierArrivalsAndRelease :
    (∀ e ∈ [(0, 0), (1, 0), (1, 1)], let a := ctlWr 0x1508 1
     let s := blkS { ctlIn := [a], expect := 1, count := e.1, early := e.2 }
     s.staged 0 ∧ (s.blk 0).ctlIn = a :: [] ∧ a.writes 0x1508 = true ∧ ((s.blk 0).count < (s.blk 0).expect ↔ e.1 = 0) ∧
     ((s.blk 0).early < (s.blk 0).expect ↔ e.2 = 0)) ∧
    (let s := core run
     s.staged 0 ∧ s.barParent 0 = some 20 ∧ s.partOfBlk 0 ≠ 0xFF ∧ s.barArrived 0 = true ∧ (s.blk 0).barUp = false ∧
     (blkS { expect := 1 }).barArrived 0 = false ∧ (blkS { barUp := true }).staged 0 ∧ ((blkS { barUp := true }).blk 0).barUp = true ∧
     (s.barArrived (s.barRoot 0) = false)) ∧
    (let s := { core run with blks := (core run).blks ++ ((core run).partBlks 0).filterMap (fun b => if b = 0 then none else
       some (b, ({ fence := false, childArr := (core run).partBlks 0 } : Block))) }
     s.barArrived (s.barRoot 0) = true) := by
  unfold State.staged; decide +kernel

/-- A host signal message for an object. -/
def sigMsg (op obj val : Nat) : List Byte :=
  [1, BitVec.ofNat 8 op, 0, 0] ++ toBytes 2 obj ++ [0, 0] ++ toBytes 4 val ++ List.replicate 20 0

/-- Signals of the three kinds to object 15 with and without its permission; a doorbell at port 0's block and another; a port's queue of 63 and
64 doorbells; credit for one message; an island to be cleared, to report, to park. -/
theorem witness_SignalsDoorbellsClearAndParking :
    (∀ op ∈ [0, 1, 2], ∀ w ∈ [0x8000, 0x7FFF], let m := sigMsg op 15 0x7FFFFFFF
     let s := { blkS { sigperm := BitVec.ofNat 16 w } with ports := [(160, { st := 2, inbox := [(1, [m])] })] }
     s.stagedPp 0 ∧ lget [] (s.port (ppPort 0)).inbox 1 = m :: [] ∧ sigOk m = true ∧
     s.sigAllowed 0 (fld m 6 1) (fld m 4 2) 0 1 = true ∧ fld m 4 2 = 15 ∧ (s.blk 0).fence = false ∧ (s.blk 0).rstFence = false ∧
     ((s.blk 0).sigperm.getLsbD 15 = true ↔ w = 0x8000) ∧ fld m 1 1 = op ∧ syncValue (lget 0 (s.blk 0).sync 15) + fld m 8 4 < 2 ^ 31) ∧
    (∀ b ∈ [0, 1], let a := ctlWr 0x1510 1
     let s := { core run with blks := [(b, { fence := false, ctlIn := [a] })], ports := [(160, { st := 2 })] }
     s.staged b ∧ (s.blk b).ctlIn = a :: [] ∧ a.writes 0x1510 = true ∧ s.ppUp (islOfBlk b) = true ∧ (ppBlk (islOfBlk b) = b ↔ b = 1)) ∧
    (∀ n ∈ [63, 64], let d : Doorbell := { srcBlk := 1, srcCob := 0, tag := 0, part := 0, payload := 0, time := 0 }
     let q : Port := { st := 2, bells := List.replicate n d, cred := [(1, 2)] }
     let s := { core run with blks := [(1, { fence := false, bellIn := [(0, d)] })], ports := [(160, q)] }
     s.stagedPp 0 ∧ (s.blk (ppBlk 0)).bellIn = (0, d) :: [] ∧ s.ppUp 0 = true ∧ (64 ≤ (s.port (ppPort 0)).bells.length ↔ n = 64) ∧
     (s.port (ppPort 0)).bells ≠ [] ∧ (s.port (ppPort 0)).st = 2 ∧
     2 * ((lget [] (s.port (ppPort 0)).vcq 1).length + 1) ≤ lget 0 (s.port (ppPort 0)).cred 1) ∧
    (let s := { State.reset with isls := [(9, { ordered := true })] }
     (s.isl 9).ordered = true ∧ s.islFenced 9 = true) ∧
    (let s := { State.reset with isls := [(9, { cleared := true, waitRun := 2000, waitctl := 0x800007D0#32 })] }
     (s.isl 9).cleared = true ∧ (s.isl 9).waitctl.getLsbD 31 = true ∧ (s.isl 9).parked = false ∧
     (s.isl 9).waitctl.toNat % 2 ^ 24 ≤ (s.isl 9).waitRun ∧ (State.reset.isl 9).waitRun < (State.reset.isl 9).waitctl.toNat % 2 ^ 24) := by
  unfold State.stagedPp State.staged
  repeat' apply And.intro
  all_goals decide +kernel

/-- A descriptor that copies 64 bytes inside block 0. -/
def desc : Desc :=
  { idx := 0, src := 2 ^ 55, dst := 2 ^ 55 + 64, n0 := 64, n1 := 1, n2 := 1, sstr1 := 0, sstr2 := 0, dstr1 := 0, dstr2 := 0,
    bind := 0, prio := 0, ord := false, idem := false, fill := false, syncen := false, syncid := 0, inc := 1, timeout := 1,
    user := 0 }

/-- Channel 15 of block 0. -/
def chanS (c : Chan) : State := blkS { dmaAlloc := 16, chans := [(15, c)] }

/-- PROD writes that post as many descriptors as the ring holds and one more; CLR and ABORT at a FAILED channel; a descriptor to read, with a
tag, with none, with a request waiting; an answered one that passes its checks, one that does not, one with ORD behind another; a piece to issue; answers OK and not to a piece and to a signal; a finished, a timed-out, a drained one. -/
theorem witness_DmaDescriptorsRunInOrder :
    (∀ v ∈ [1, 2], let a := ctlWr 0x17E8 v
     let s := blkS { dmaAlloc := 16, ctlIn := [a] }
     s.staged 0 ∧ (s.blk 0).ctlIn = a :: [] ∧ a.kind = .wr ∧ isChanOff a.off = true ∧ chanOf a.off = 15 ∧ chanReg a.off = 8 ∧
     ¬ (s.blk 0).dmaAlloc ≤ 15 ∧ (2 ^ bits ((s.blk 0).chan 15).cfg.toNat 28 4 < (BitVec.ofNat 16 a.val - ((s.blk 0).chan 15).cons).toNat ↔ v = 2)) ∧
    (∀ v ∈ [1, 3], let a := ctlWr 0x17F4 v
     let s := blkS { dmaAlloc := 16, ctlIn := [a], chans := [(15, { stat := 2 })] }
     chanReg a.off = 20 ∧ 15 < (s.blk 0).dmaAlloc ∧ bit a.val 0 = true ∧ (bit a.val 1 = true ↔ v = 3) ∧ ((s.blk 0).chan 15).stat = 2) ∧
    (let s := { chanS { prod := 1 } with mem := [(bsBase + 6, 0x80), (bsBase + 8, 0x40), (bsBase + 14, 0x80), (bsBase + 16, 64),
      (bsBase + 20, 1), (bsBase + 22, 1), (bsBase + 48, 1)] }
     let c := (s.blk 0).chan 15
     let raw := s.rdN (bsAddr 0 0) 64
     s.engOff 0 0 = false ∧ s.suspected false 0 15 = false ∧ c.stat < 2 ∧ c.descs = [] ∧ c.cons ≠ c.prod ∧ c.dread = none ∧
     (s.blk 0).dmaTag = some 0 ∧ (s.blk 0).dmaHeld = false ∧ s.descCheck 0 c (Desc.ofBytes 0 raw) raw = none ∧
     s.descCheck 0 c (Desc.ofBytes 0 (List.replicate 64 0)) (List.replicate 64 0) = some (2, none) ∧
     ((blkS { dmaGone := List.range 256 }).blk 0).dmaTag = none ∧
     ((blkS { waitq := [{ kind := .rd, space := 0, off := 0, size := 64, sport := 257 }] }).blk 0).dmaHeld = true) ∧
    ((({ prod := 1, dread := some (5, 0, some (0, List.replicate 64 0)) } : Chan).dread = some (5, 0, some (0, List.replicate 64 0))) ∧
      (Desc.ofBytes 0 (List.replicate 64 0xFF)).ord = true) ∧
    (let s := chanS { stat := 1, descs := [desc] }
     (s.chanNext 0 15 = some (desc, none)) ∧ s.suspHeld false 0 15 = false ∧
     (∀ m < 16, (m + 15 + 15 * (s.blk 0).dmaLast) % 16 < (15 + 15 + 15 * (s.blk 0).dmaLast) % 16 → s.chanNext 0 m = none) ∧ 0 < desc.n0) ∧
    (∀ st ∈ [0, 4], let a : Ans := { sport := 257, tag := 5, status := st, data := List.replicate 64 0 }
     let p := Piece.mk 5 0 64 (2 ^ 55)
     let d := { desc with reads := [p] }
     let s := { chanS { stat := 1, descs := [d] } with blks := [(0, { fence := false, chans := [(15, { stat := 1, descs := [d] })], dmaAns := [a] })] }
     (s.blk 0).dmaAns = a :: [] ∧ (s.blk 0).dmaFind 5 = some (15, d, p, true) ∧ d.stopped = false ∧ ((s.blk 0).chan 15).stat ≠ 3) ∧
    (let a : Ans := { sport := 257, tag := 255, status := 0 }
     let d := { desc with signalled := true, sigTag := 255 }
     let s := blkS { chans := [(15, { stat := 1, descs := [d] })], dmaAns := [a] }
     (s.blk 0).dmaAns = a :: [] ∧ (s.blk 0).dmaFind a.tag = none ∧ ((s.blk 0).chan 15).descs = d :: [] ∧ d.signalled = true ∧
     d.sigTag = a.tag ∧ ∀ e ∈ (s.blk 0).chans, e.2.descs.head?.any (fun x => x.signalled && x.sigTag == a.tag) = true → e.1 = 15) ∧
    (∀ n ∈ [0, 1], let d := { desc with rnext := 64, wnext := 64, syncen := n == 1, syncid := 15, inc := 65535 }
     let s := chanS { stat := 1, descs := [d] }
     ((s.blk 0).chan 15).descs = d :: [] ∧ d.finished = true ∧ d.signalled = false ∧ (d.syncen = true ↔ n = 1) ∧ d.inc < 2 ^ 16 ∧
     d.syncid / 16 = 0 ∧ (s.blk 0).fence = false ∧ (s.blk 0).rstFence = false ∧ (s.blk 0).dmaTag = some 0) ∧
    (let s := { chanS { stat := 1, descs := [desc] } with ticks := 1 }
     ((s.blk 0).chan 15).descs.find? (fun d => !d.stopped && !d.signalled && d.start + d.timeout ≤ s.ticks) = some desc) ∧
    (let s := chanS { stat := 3, err := 0x8000000F, paddr := some 8, descs := [{ desc with stopped := true }] }
     let c := (s.blk 0).chan 15
     c.stat = 3 ∧ c.paddr = some 8 ∧ c.dread = none ∧ c.err.getLsbD 31 = true ∧ bits c.err.toNat 0 13 / 16 = 0 ∧
     (s.blk 0).dmaTag.isSome = true ∧ c.descs.all (fun d => d.stopped && d.reads.isEmpty && d.writes.isEmpty && !d.signalled) = true) := by
  unfold State.staged
  repeat' apply And.intro
  all_goals decide +kernel

/-- Port 0 with its block, whose stream engine is in service. -/
def spS (q : Port) (k : Block) : State := { core run with ports := [(0, q)], blks := [(spBlk 0, { k with fence := false })] }

/-- A beat: TYPE, TAG, LEN, STATUS. -/
def beat (type tag len status : Nat) : BitVec 256 := BitVec.ofNat 256 (type * 2 ^ 252 + tag * 2 ^ 244 + (len - 1) * 2 ^ 241 + status * 2 ^ 236)

/-- A command of each kind at a port that is and is not UP, poisoned, with no tag left and with one; RSP with and without all its data, ACK;
RLY at a port without a RELAY binding and with one, with data and with none, with every tag in use; a replayed transfer, the high half of a
beat, a new beat at both widths, one past the window; answers within and past the
limits of consecutive and counted replays; a good, a marked and a bad beat with parity and with CRC. -/
theorem witness_StreamPortsCarryCommandsAndReplay :
    (∀ kd ∈ [0, 1, 2, 3], ∀ st ∈ [2, 4], let c : PortCmd := { kind := kd, addr := 0, beats := 1, sblk := 1, sport := 0, tag := 0 }
     let s := spS { st := st } { portIn := [(0, c)] }
     s.stagedSp 0 ∧ s.nextCmd 0 = some c ∧ s.engOff (spBlk 0) 1 = false ∧ (s.port 0).st = st ∧ (s.port 0).freeTag = some 0) ∧
    (let c : PortCmd := { kind := 0, addr := 0, beats := 1, sblk := 1, sport := 0, tag := 0 }
     (spS { st := 2 } { portIn := [(0, { c with poison := true })] }).nextCmd 0 = some { c with poison := true } ∧
     (spS { st := 2, gone := List.range 256 } { portIn := [(0, c)] }).nextCmd 0 = some c ∧
     ((spS { st := 2, gone := List.range 256 } { portIn := [(0, c)] }).port 0).freeTag = none) ∧
    (let c : PortCmd := { kind := 0, addr := 0, beats := 1, sblk := 1, sport := 0, tag := 0 }
     let q : Port := { rx := [beat 8 255 2 0, 0, 0], tags := [(255, c)] }
     q.rx = beat 8 255 2 0 :: [0, 0] ∧ bType (beat 8 255 2 0) = 8 ∧ bTag (beat 8 255 2 0) = 255 ∧ bLen (beat 8 255 2 0) = 2 ∧
     q.tags.find? (fun e => e.1 = bTag (beat 8 255 2 0)) = some (255, c) ∧ c.sblk ≠ spBlk 0 ∧ bLen (beat 8 255 2 0) ≤ [0, (0 : BitVec 256)].length ∧
     [(0 : BitVec 256)].length < bLen (beat 8 255 2 0) ∧ bType (beat 9 255 1 0) = 9) ∧
    (let h : BitVec 256 := beat 4 1 1 0 ||| BitVec.ofNat 256 (2 ^ 192 + 2 ^ 160 + 2 ^ 55)
     bType h = 4 ∧ bLen h ≤ [(0 : BitVec 256)].length ∧ (spS {} {}).bindOf 0 = none ∧ ((spS {} {}).blk (spBlk 0)).rlyUsed.length < 256 ∧
     256 ≤ ((spS {} { gone := (List.range 256).map (fun t => (258, t)) }).blk (spBlk 0)).rlyUsed.length ∧ rlyMask (bLen h) 0 0 = 0 ∧
     (let s := { spS {} {} with isls := [(0, { powered := true, own := 0x80000000#32, sbind := [(0, 0xA0000000#32)] })] }
     s.bindOf 0 = some 0xA0000000#32 ∧ sbKind 0xA0000000#32 = 1 ∧ rlyMask (bLen h) (bits h.toNat 192 32) (bits h.toNat 160 32) = 1 ∧
     s.global (spBlk 0) (bits h.toNat 0 56 + lowBit 1) = .die 0 0 0 0 ∧
     s.global (spBlk 0) (bits h.toNat 0 56 + lowBit 1 + (highBit 1 - lowBit 1 + 1) - 1) = .die 0 0 0 0)) ∧
    (let x : Sent := { data := 1, n := 0 }
     let q : Port := { st := 2, win := 1, resend := [x], outq := [5] }
     q.resend = x :: [] ∧ q.unans.length + q.dropAns < q.win ∧ ({ q with resend := [], outHalf := some x } : Port).outHalf = some x ∧
     (∀ w ∈ [false, true], ({ q with resend := [], w128 := w } : Port).outHalf = none ∧ ({ q with resend := [], w128 := w } : Port).outq = 5 :: [] ∧
       ({ q with w128 := w } : Port).w128 = w) ∧ ({ q with unans := [x] } : Port).win ≤ [x].length + 0) ∧
    (∀ e ∈ [(7, 0xFFE), (8, 0xFFE), (7, 0xFFF)], let x : Sent := { data := 1, n := 0, again := true }
     let q : Port := { st := 2, unans := [x], consec := e.1, rate := e.2 }
     q.dropAns = 0 ∧ q.unans = x :: [] ∧ (q.lretry.toNat % 16 < q.consec + 1 ↔ e.1 = 8) ∧ (q.lretry.toNat / 2 ^ 16 < q.rate + 1 ↔ e.2 = 0xFFF) ∧
     q.rate ≤ q.lretry.toNat / 2 ^ 16 ∧ q.lretry.toNat / 2 ^ 16 < 0x1000) ∧
    (∀ n ∈ [0, 1], let q : Port := { st := 2, chk := n == 1 }
     q.rx.length < 32 ∧ q.check (q.demux 0 0) 0 = 0 ∧ q.check (q.demux 0 255) 255 = 1 ∧ q.check (q.demux 0 2) 2 = 2 ∧ q.prLo = none ∧ q.rxHalf = none ∧
     ({ q with w128 := true, rxHalf := some 7 } : Port).rxHalf = some 7 ∧ ({ q with w128 := true } : Port).check 0 0 = 0) := by
  unfold State.stagedSp
  repeat' apply And.intro
  all_goals decide +kernel

/-- A header flit with its check. -/
def flit (h : BitVec 256) : BitVec 272 := 0#8 ++ (flitCrc false true h ++ h)

/-- A frame to resend, one that credit covers, none; data frames that are bad, next with and without END, behind and ahead; control frames
good and bad; something to report and nothing; a replay timeout with and without frames. -/
theorem witness_FramesAreOrderedCreditedAndReplayed :
    (let f : Frame := { seq := 0, vc := 0, last := true, fl := [0] }
     let s := portS 160 { st := 2, refr := [f], unacked := [f], ackDue := true }
     s.stagedPp 0 ∧ (s.port (ppPort 0)).st = 2 ∧ (s.port (ppPort 0)).refr = f :: [] ∧ (s.port (ppPort 0)).ackDue = true ∧
     (s.port (ppPort 0)).unacked ≠ [] ∧ (s.port (ppPort 0)).lastRep ≠ some (s.port (ppPort 0)).ackBase ∧
     (s.port (ppPort 0)).rate + 1 ≤ (s.port (ppPort 0)).lretry.toNat / 2 ^ 16) ∧
    (let q : Port := { st := 2, vcq := [(0, [List.replicate 32 0])], cred := [(0, 2)] }
     q.refr = [] ∧ q.nextVc = some 0 ∧ lget [] q.vcq 0 = List.replicate 32 0 :: []) ∧
    (({ st := 2 } : Port).nextVc = none ∧ ({ st := 2 } : Port).ackDue = false ∧ ({ st := 2 } : Port).nakDue = false ∧
      ({ st := 2 } : Port).unacked = []) ∧
    (∀ e ∈ [(0, 0), (0, 1), (2048, 0), (4095, 0), (1, 0), (2047, 0)], let h : BitVec 256 := BitVec.ofNat 256 (2 ^ 252 + e.1 * 2 ^ 240 + e.2 * 2 ^ 219)
     (({} : Port).flitOk true (flit h) && [(0 : BitVec 272)].all (({} : Port).flitOk false) && capF h 252 4 == 1 &&
       capF h 220 4 + 1 == [(0 : BitVec 272)].length) = true ∧ ({} : Port).flitData (flit h) = h ∧
     h.getLsbD 226 = false ∧ (BitVec.ofNat 12 (capF h 240 12) - (0 : BitVec 12)).toNat = e.1 ∧ (h.getLsbD 219 = true ↔ e.2 = 1)) ∧
    (let h : BitVec 256 := BitVec.ofNat 256 (2 * 2 ^ 252 + 2 ^ 227)
     ({} : Port).flitOk true 0 = false ∧ ({} : Port).flitOk true (flit h) = true ∧ ({} : Port).flitData (flit h) = h ∧ capF h 252 4 = 2 ∧
     h.getLsbD 226 = false ∧ h.getLsbD 227 = true) ∧
    (let h : BitVec 256 := BitVec.ofNat 256 (2 * 2 ^ 252 + 2 ^ 227 + 2 ^ 226)
     let f : Frame := { seq := 1, vc := 0, last := true, fl := [0] }
     let q : Port := { unacked := [{ f with seq := 0 }, f] }
     h.getLsbD 226 = true ∧ (q.rep.any (fun r => r.1 == BitVec.ofNat 12 (capF h 228 12))) = false ∧
     (({ rep := some (0, 3) } : Port).rep.any (fun r => r.1 == BitVec.ofNat 12 (capF h 228 12))) = true ∧
     q.unacked.filter (fun f => 2048 ≤ (BitVec.ofNat 12 (capF h 228 12) - f.seq).toNat) = [f]) := by
  unfold State.stagedPp
  repeat' apply And.intro
  all_goals decide +kernel

/-- A presence beat, and a capability beat that a stream port accepts. -/
def presence : BitVec 256 := BitVec.ofNat 256 (ofBytes ((List.range 31).map (fun i => if i % 2 = 0 then 0x55 else 0xAA) ++ [0xA0]))
def capability : BitVec 256 := BitVec.ofNat 256 (0xA2 * 2 ^ 248 + 2 * 2 ^ 244 + 2 ^ 200 + 3 * 2 ^ 196 + 3 * 2 ^ 192 + 32 * 2 ^ 176)

/-- A port that may and one that may not train, and one already UP; the last presence beat but one and the last; roles and identities that clash
and do not; capability beats that do and do not agree; sweeps before and at the last code; the last verify beat with and without the
partner's; both results of a status beat; a phase before and after its limit; retired and not; wires with and without a spare. -/
theorem witness_LinksTrainAndRetire :
    (171 < 172 ∧ ((portS 0 { st := 0 }).port 0).st = 0 ∧ ((portS 0 { st := 3 }).port 0).st = 3 ∧ ¬ 2 ≤ (portS 0 {}).aon.pkgclass.toNat ∧
      2 ≤ ({ portS 0 {} with aon := { pkgclass := 2 } } : State).aon.pkgclass.toNat ∧ ((portS 0 { st := 2 }).port 0).st = 2) ∧
    (isPresence presence = true ∧ isPresence 0 = false ∧ ((portS 171 { st := 1, cnt := 14 }).port 171).cnt + 1 < 16 ∧
      16 ≤ ((portS 171 { st := 1, cnt := 15 }).port 171).cnt + 1 ∧ ((portS 171 { st := 1, cnt := 15 }).port 171).ph = 0 ∧
      ((portS 171 { st := 1, cnt := 15 }).port 171).mine = false ∧ ((portS 171 { st := 1, theirs := true }).port 171).theirs = true) ∧
    (∀ n ∈ [0, 1], let q := (portS 0 { st := 1, ph := 1, lead := n == 1 }).port 0
      q.ph = 1 ∧ q.mine = false ∧ q.wd = 0 ∧ q.peerId = none ∧ (q.lead = true ↔ n = 1)) ∧
    (∀ l ∈ [0, 1, 2, 3], ∀ n ∈ [0, 1], let d : BitVec 256 := BitVec.ofNat 256 (0xA1 * 2 ^ 248 + l * 2 ^ 246 + n * 2 ^ 224)
      bits d.toNat 248 8 = 0xA1 ∧ (d.getLsbD 247 = true ↔ 2 ≤ l) ∧ (d.getLsbD 246 = true ↔ l % 2 = 1) ∧
      ((d.extractLsb' 224 16 : BitVec 16).toNat = (portS 0 {}).linkId ↔ n = 0)) ∧
    (({ ph := 1, wd := 1 } : Port).statusNext = false ∧ ({ ph := 1, wd := 1 } : Port).wd = 1) ∧
    (∀ n ∈ [6, 7], let q := (portS 0 { st := 1, ph := 2, peer := capability, cnt := n }).port 0
     q.st = 1 ∧ q.ph = 2 ∧ q.peer = capability ∧ (8 ≤ q.cnt + 1 ↔ n = 7) ∧ capF capability 248 8 = 0xA2 ∧ q.record = none) ∧
    ((match negotiate 0 false capability with
      | .inr l => some l
      | .inl _ => none) = some [2, 0, 0, 0x3C, 32, 0, 0, 0, 0]) ∧
    ((match negotiate 0 true (capability &&& ~~~BitVec.ofNat 256 (2 ^ 193)) with
      | .inr _ => none
      | .inl c => some c) = some 3) ∧
    (∀ n ∈ [4094, 4095], let q : Port := { st := 1, ph := 3, swRuns := 1, swCnt := (List.range 64).map (fun c => (c, if c = 63 then n else 4096)) }
     63 < 64 ∧ q.mine = false ∧ q.swRuns ≠ 0 ∧ q.swRuns + 1 ≠ 3 ∧
     ((List.range 64).all (fun c => 4096 ≤ lget 0 (lset q.swCnt 63 (lget 0 q.swCnt 63 + 1)) c) = true ↔ n = 4095)) ∧
    (∀ e ∈ [(4094, 0), (4095, 0), (4095, 1)], let q : Port := { st := 1, ph := 4, cnt := e.1, theirs := e.2 == 1, saved := e.2 == 1 }
     q.mine = false ∧ (q.cnt + 1 = 4096 ↔ e.1 = 4095) ∧ (q.theirs = true ↔ e.2 = 1) ∧ (q.saved = true ↔ e.2 = 1)) ∧
    (∀ e ∈ [(3, 0), (4, 1)], (({ st := 1, ph := e.1, mine := e.2 == 1 } : Port).mine && ({ st := 1 } : Port).theirs) = false) ∧
    (∀ n ∈ [3, 4], ({ st := 1, ph := 5, tsent := n } : Port).ph = 5 ∧ (({ st := 1, ph := 5, tsent := n } : Port).tsent < 4 ↔ n = 3)) ∧
    (∀ t ∈ [100000, 99999], let s := { portS 0 { st := 1, ph := 5 } with ticks := t }
     ((s.port 0).phTick + phaseLimit (s.port 0).ph ≤ s.ticks ↔ t = 100000) ∧ s.aon.alertN = true) ∧
    ((portS 0 { st := 1, ph := 3 }).port 0).ph = 3 ∧ ({ portS 0 {} with aon := { alertN := false } } : State).aon.alertN = false ∧
    ((portS 0 { st := 4 }).port 0).st = 4 ∧
    (let q : Port := { st := 2, spares := [(0, 0x80)] }
     q.chk = false ∧ q.used (q.mirSeen % 8) = true ∧ ({ q with mirSeen := 1 } : Port).used 1 = false) := by
  repeat' apply And.intro
  all_goals decide +kernel

/-- Packets to inject inside and outside the partition; a grant to the own port, to a neighbour, and over the seam; packets to age; a credit owed;
packets to eject of both classes, fenced and not, and an answer; a NOCPRI write; seam tests of the last wire of a group with its spare free and
used. -/
theorem witness_MeshMovesPacketsAlongTheirRoute :
    let a : Acc := { kind := .rd, space := 0, off := 0, size := 8 }
    let p : Packet := { cls := 0, level := 3, nfl := 0, dst := 1, src := 0, pay := .acc a }
    (∀ d ∈ [1, 319], let q := { p with dst := d }
     let s := blkS { niq := [q], partrect := 0x83000700#32 }
     s.staged 0 ∧ (pick (s.blk 0).niLast 262 ((niHeads [] (s.blk 0).niq).filter
       (fun c => !inRect (s.blk 0).partrect c.2.dst || (s.blk 0).localRoom c.2))).isSome = true ∧ (inRect (s.blk 0).partrect d = true ↔ d = 1)) ∧
    (∀ e ∈ [(0, 0, 4), (0, 1, 1), (140, 160, 2)], let q := { p with dst := e.2.1 }
     let s := { core run with blks := [(e.1, { fence := false, bufs := [(24, [q])] }), (160, { fence := false })] }
     s.staged e.1 ∧ (pick (lget 29 (s.blk e.1).outLast e.2.2) 30 (s.heads e.1 e.2.2)).isSome = true ∧
     (neighbour e.1 e.2.2 = some e.2.1 ∨ e.2.2 = 4) ∧ (isSeam e.1 e.2.1 = true ↔ e.1 = 140)) ∧
    (seamErr {} p 1 % 2 ^ 16 ≠ 0 ∧ seamErr {} p 0 % 2 ^ 16 = 0) ∧
    (let s := blkS { bufs := [(29, [p])], niq := [p] }
     lget [] (s.blk 0).bufs (4 * 6 + 5 % 6) = p :: [] ∧ (s.blk 0).niq.find? (fun p => p.niKey = 0) = some p) ∧
    (let s := { core run with blks := [(0, { fence := false }), (1, { owed := [(opposite 1 * 6 + 5, 1)] })] }
     neighbour 0 1 = some 1 ∧ lget 0 (s.blk 1).owed (opposite 1 * 6 + 5) ≠ 0) ∧
    (∀ n ∈ [0, 1], let s := { core run with blks := [(0, { fence := n == 1, ejq := [(5, [p])], remoteIn := [] })] }
     lget [] (s.blk 0).ejq 5 = p :: [] ∧ (s.blk 0).remoteIn = [] ∧ p.pay = .acc a ∧ p.poison = false ∧ a.space ≤ 1 ∧ ((s.blk 0).fence = true ↔ n = 1)) ∧
    ((blkS { remoteIn := [a] }).blk 0).remoteIn ≠ [] ∧ (ctlWr 0x104 0xAA).writes 0x104 = true ∧
    (∀ r ∈ [0, 0x8000], let k : Block := { seamRun := [(527, 2)], seamRepl := BitVec.ofNat 16 r }
     seamRow 140 = true ∧ k.seamFailed = false ∧ 527 < 528 ∧ k.seamNext = [] ∧ lget 0 k.seamRun 527 = 2 ∧
     (lget 0 k.seamMap (527 / 33)).toNat ≠ 128 + 527 % 33 ∧ (k.seamRepl.getLsbD (527 / 33) = true ↔ r = 0x8000)) := by
  unfold State.staged
  repeat' apply And.intro
  all_goals decide +kernel

/-- CRC-32 of "123456789": the check value of IEEE 802.3. -/
theorem test_crc32 : crc32 [0x31, 0x32, 0x33, 0x34, 0x35, 0x36, 0x37, 0x38, 0x39] = 0xCBF43926 := by decide +kernel

/-- Slice 0 with queue pair 511. -/
def nteS (k : Qp) (n : Nte) : State :=
  let isl : Island := { powered := true, own := 0x80000000#32, nte := { n with qps := [(511, k)] } }
  { core run with isls := [(0, isl)], blks := [(1, { fence := false })], ports := [(160, { st := 2 })] }

/-- A WQE of an operation on the last byte of block 0's store. -/
def wqe (op len flags : Nat) : List Byte :=
  toBytes 8 (2 ^ 55 + 2 ^ 21 - 1) ++ List.replicate 8 0 ++ toBytes 4 len ++ List.replicate 8 0 ++
    [BitVec.ofNat 8 op, BitVec.ofNat 8 flags] ++ List.replicate 34 0

/-- A work request. -/
def work (op : Nat) (signal : Bool) : Work :=
  { idx := 0, op := op, blk := 0, off := 0, raddr := 0, len := 1, rkey := 0, imm := 0, signal := signal, solicited := false,
    syncid := 15, inc := 1, user := 0, psn := 0, npkt := 1 }

/-- The slice's own conditions; work requests with the queue empty, the WQE not read, wrong, and good, for each operation; timers that have and
have not run out, with retries left and not; a READ and a SEND that are done. -/
theorem witness_NteRequesterSendsRetriesAndCompletes :
    (nteRuns (nteS { stat := 1 } {}) 0 ∧ ((nteS { stat := 1 } {}).nteTake 0).qp 0 511 = { stat := 1 } ∧
      ((nteS { stat := 1 } {}).nteTake 0).suspHeld true (ppBlk 0) 511 = false) ∧
    (({ stat := 1 } : Qp).sqNext = 0 ∧ ({ stat := 1, sqprod := 1 } : Qp).sqNext ≠ 1 ∧ ({ stat := 1 } : Qp).wqe = none ∧ ({} : Qp).wqeRd = false) ∧
    (∀ op ∈ [0, 1, 2, 3, 4], let u := (nteS { stat := 1, sqprod := 1, wqe := some (wqe op 1 0) } {}).nteTake 0
     wqeOk (wqe op 1 0) = true ∧ fld (wqe op 1 0) 28 1 = op ∧ u.nteBuf 0 (fld (wqe op 1 0) 0 8) (fld (wqe op 1 0) 16 4) = some (0, 2097151) ∧
     bit (fld (wqe op 1 0) 29 1) 1 = false) ∧ wqeOk (wqe 5 1 0) = false ∧
    (∀ e ∈ [(0, 820), (1, 820)], let k : Qp := { stat := 1, timer := some 0, retryLeft := e.1, set := { timeout := 1 }, rnrAt := some 819, works := [] }
     let u := { nteS k {} with ticks := e.2 }.nteTake 0
     (u.qp 0 511).timer = some 0 ∧ (u.qp 0 511).set.timeout ≠ 0 ∧ 0 + (4096 * 2 ^ (u.qp 0 511).set.timeout + 9) / 10 ≤ u.ticks ∧ 819 ≤ u.ticks ∧
     ((u.qp 0 511).retryLeft ≠ 0 ↔ e.1 = 1) ∧ (u.qp 0 511).rnrAt = some 819) ∧
    (∀ t ∈ [5499, 5500], let u := { nteS { stat := 1, bytesSince := 10485759, cnpAt := some 0 } {} with ticks := t }.nteTake 0
     (u.ticks < (u.qp 0 511).taAt + 5500 ↔ t = 5499) ∧ (u.qp 0 511).bytesSince < bInc ∧ (u.qp 0 511).cnpAt = some 0 ∧ (u.qp 0 511).taAt ≤ 0) ∧
    (∀ op ∈ [0, 4], let w : Work := { work op (op == 4) with got := 1 }
     let s := nteS { stat := 1, una := 1, nextPsn := 1, works := [w] } {}
     (s.qp 0 511).works = w :: [] ∧ w.adding = false ∧ (s.nte 0).workDone 511 (s.qp 0 511) w = true ∧ (w.signal = true ↔ op = 4) ∧
     s.ownObj (ppBlk 0) 15 = true ∧ ((s.nteTake 0).nteUsed 0).length < 256) ∧
    (let u := (nteS { stat := 1 } { paceAt := 2 ^ 20 }).nteTake 0
     u.ticks * 2 ^ 20 < (u.nte 0).paceAt) := by
  unfold nteRuns
  repeat' apply And.intro
  all_goals decide +kernel

/-- A packet whose turn it is; an acknowledgement, a READ response with and without its READ, the NAKs, a CNP; producer writes within and past
the ring. -/
theorem witness_NteRequesterSendsRetriesAndCompletes_receives :
    (let u := (nteS { stat := 1, out := [.ack 0] } {}).nteTake 0
     u.ppUp 0 = true ∧ ((u.nte 0).turns u.ticks (u.suspHeld true (ppBlk 0))).find? (fun e => pktReady (lget ({} : Qp) (u.nte 0).qps e.1) e.2) =
      some (511, .resp (.ack 0)) ∧ (u.nte 0).paceAt ≤ u.ticks * 2 ^ 20) ∧
    (let p : RxPkt := { qp := 511, op := 0x11, psn := 0, ackReq := false, ce := false }
     let s := nteS { stat := 1, una := 0, nextPsn := 1 } { rxq := [p] }
     ((s.nteTake 0).nte 0).rxq = p :: [] ∧ p.qp = 511 ∧ (s.qp 0 511).stat = 1 ∧ p.syn / 32 = 0 ∧ (s.qp 0 511).openRead = none ∧
     psnDist p.psn (s.qp 0 511).una < 2 ^ 23 ∧ psnDist (psnAdd p.psn 1) (s.qp 0 511).una ≠ 0 ∧
     psnDist (psnAdd p.psn 1) (s.qp 0 511).una ≤ psnDist (s.qp 0 511).nextPsn (s.qp 0 511).una ∧ p.psn = (s.qp 0 511).una ∧
     psnDist 0 0 < psnDist (s.qp 0 511).nextPsn (s.qp 0 511).una ∧ synSeq / 32 ≠ 0 ∧ synRnr 31 / 32 = 1 ∧ synInv / 32 ≠ 0 ∧
     (s.qp 0 511).rnrLeft = 0 ∧ ({ rnrLeft := 7 } : Qp).rnrLeft ≠ 0 ∧ 0xD ≤ 0x10 ∧ 0x10 ≤ 0x10) ∧
    (let w : Work := { work 4 false with psn := 5 }
     ({ works := [w] } : Qp).openRead = some w ∧ psnAdd w.psn w.got = 5) ∧
    (∀ v ∈ [1, 2], let a := ctlWr (0x4000 + 32 * 511 + 8) v
     let s := { nteS { stat := 1 } { qalloc := 512 } with blks := [(1, { fence := false, ctlIn := [a] })] }
     ((s.nteTake 0).blk (ppBlk 0)).ctlIn = a :: [] ∧ a.kind = .wr ∧ isQpOff a.off 8 = true ∧ qpOf a.off = 511 ∧ 511 < (s.nte 0).qalloc ∧
     (prodOk (BitVec.ofNat 16 a.val) 0 0 (s.qp 0 511).sqSlots = true ↔ v = 1)) := by
  repeat' apply And.intro
  all_goals decide +kernel

/-- An acknowledgement frame from a peer that has the slice's own addresses. -/
def loopback : Nte := { mac := 0x020000000001#48, ip4 := 0x0A000001#32 }
def ackFrame : List Byte :=
  frameOf loopback { mac := 0x020000000001#48, ip := 0x0A000001#128, ttl := 64 } 2 (bth 0x11 false 0 0x3FF false 0 ++ [0, 0, 0, 0])

/-- Frames that are counted, dropped and taken; packets in and out of order, duplicates; a SEND with and without an RQE and in progress; a WRITE and a
READ inside a region and outside; a completion to record and one recorded; region writes that open, fail and close. -/
theorem witness_NteResponderPlacesAndAnswers :
    (rxFrame loopback (List.replicate 64 0) = .count ∧ rxFrame {} ackFrame = .drop ∧
      (let s := { nteS { stat := 1 } loopback with ports := [(160, { st := 2, inbox := [(2, [ackFrame])] })] }
       nteRuns s 0 ∧ lget [] (s.port (ppPort 0)).inbox 2 = ackFrame :: []) ∧
      rxFrame loopback ackFrame = .pkt { qp := 511, op := 0x11, psn := 0, ackReq := false, ce := false } ∧ rcOp 0x11 = true) ∧
    (({ epsn := 5 } : Qp).seqTest 5 = 0 ∧ ({ epsn := 5 } : Qp).seqTest 6 = 2 ∧ ({ epsn := 5 } : Qp).seqTest 4 = 1) ∧
    (∀ op ∈ [0, 2, 6, 0xA, 0xC], let p : RxPkt := { qp := 511, op := op, psn := 0, ackReq := false, ce := false, va := 0xFF, rkey := 127, len := 1, data := [7] }
     let n : Nte := { rxq := [p], malloc := 128, mrs := [(127, { ctl := 0xE0000000#32, loc := 0x1FFF00#32, len := 0x100 })] }
     let s := nteS { stat := 1, set := { rddepth := 1 }, rqprod := 1 } n
     ((s.nteTake 0).nte 0).rxq = p :: [] ∧ (s.qp 0 511).seqTest p.psn = 0 ∧ (s.qp 0 511).inSend = false ∧ (s.qp 0 511).inWrite = none ∧
     (s.qp 0 511).rqe = none ∧ (s.qp 0 511).rqeRd = false ∧ (s.qp 0 511).rqNext ≠ (s.qp 0 511).rqprod ∧ ({} : Qp).rqNext = ({} : Qp).rqprod ∧
     p.len ≤ 2 ^ 21 ∧ (s.nte 0).region p true = some { mr := 127, blk := 0, off := 0x1FFFFF, left := 1 } ∧
     (s.nte 0).region p false = some { mr := 127, blk := 0, off := 0x1FFFFF, left := 1 } ∧
     (s.nte 0).region { p with va := 0x100 } true = none ∧ (s.nte 0).region { p with va := 0x100 } false = none ∧ p.data.length ≤ 1 ∧
     (s.qp 0 511).reading < (s.qp 0 511).set.rddepth) ∧
    (let r : Recv := { idx := 0, rblk := 0, roff := 0, blk := 0, off := 0, len := 1, sync := 0, ended := true }
     let s := nteS { stat := 1, inSend := true, recvs := [r] } {}
     (s.qp 0 511).inSend = true ∧ (s.qp 0 511).recvs = [] ++ [r] ∧ r.bytes + [(7 : Byte)].length ≤ r.len ∧ r.ended = true ∧ r.stage = 0 ∧
     (s.nte 0).placed 511 r.psn = true ∧ (s.nte 0).accs.any (fun a => a.qp == 511 && a.use == .record) = false ∧ bit r.sync 31 = false ∧
     ({ r with stage := 1 } : Recv).stage = 1) ∧
    (∀ v ∈ [1, 2], let a := ctlWr (0x4000 + 32 * 511 + 12) v
     isQpOff a.off 12 = true ∧ qpOf a.off = 511 ∧ (prodOk (BitVec.ofNat 16 a.val) 0 0 ({} : Qp).rqSlots = true ↔ v = 1)) ∧
    (∀ v ∈ [0xC0000000, 0x80000000, 0], let a := ctlWr (0x3000 + 32 * 127) v
     let s := { nteS {} { malloc := 128, mrs := [(127, { loc := 0x1FFF00#32, len := 0x100 })] } with blks := [(1, { fence := false, ctlIn := [a] })] }
     ((s.nteTake 0).blk (ppBlk 0)).ctlIn = a :: [] ∧ isMrOff a.off 0 = true ∧ mrOf a.off = 127 ∧ mrOf a.off < (s.nte 0).malloc ∧
     (bit a.val 31 = true ↔ v ≠ 0) ∧ (bit a.val 30 = true ∨ bit a.val 29 = true ↔ v = 0xC0000000) ∧ s.samePart (ppBlk 0) 0 = true ∧
     (lget ({} : Region) (s.nte 0).mrs 127).loc.toNat % 2 ^ 21 + (lget ({} : Region) (s.nte 0).mrs 127).len.toNat ≤ 2 ^ 21) := by
  unfold nteRuns
  repeat' apply And.intro
  all_goals decide +kernel

/-- The header of a command item for a partition, from a requester class, of a length; the parameters follow. -/
def head (op part cls timeout : Nat) (body : List Byte) : List Byte :=
  [BitVec.ofNat 8 op, 1, 0, 0] ++ toBytes 2 (32 + body.length) ++ [0, 0, BitVec.ofNat 8 part, 0] ++ toBytes 2 (cls * 4096) ++
    [0, 0, 0, 0] ++ toBytes 4 timeout ++ List.replicate 12 0 ++ body

/-- Firmware runs; a message waits at the first management port; queues hold items. -/
def inboxS (m : List Byte) (qs : Tbl (List Item)) : State :=
  { core run with aon := { fw := 1 }, ports := [(170, { st := 2, inbox := [(0, [m])] })], queues := qs }

/-- Messages that are accepted, denied and turned away for their opcode; queues of 15 and 16 items; items that wait, run, expire with and
without having started; a FLUSH_QUEUE; a FENCE order in a list. -/
theorem witness_CommandItemsAreQueuedStartedAndAnswered :
    let it : Item := { port := 10, bytes := head 0 0xFF 1 1 [], seq := 0, tick := 0 }
    (∀ n ∈ [15, 16], let m := head 0 0xFF 1 0 []
     let s := inboxS m [(10, List.replicate n { it with bytes := head 0 0xFF 2 1 [] })]
     let i := Item.mk 10 m 0 s.ticks false false false
     s.fwUp = true ∧ canonFrom [] 0 s.queues = true ∧ s.stagedPp 10 ∧ lget [] (s.port (ppPort 10)).inbox 0 = m :: [] ∧ fld m 0 1 ≠ 0xE0 ∧
     (s.setPort (ppPort 10) {}).headerCheck i (opRow i.op) = stOk ∧ (opRow i.op).isSome = true ∧ ¬ i.part < 10 ∧
     (s.queue 10).any (fun x => x.op == 0x93 && x.started) = false ∧ (16 ≤ (s.queue 10).length ↔ n = 16) ∧
     ((s.queue 10).filter (fun x => x.fld 10 2 == i.fld 10 2)).length < s.aon.srcfg.toNat % 16) ∧
    (State.reset.headerCheck { it with bytes := head 0 0xFF 0 0 [] } (opRow 0) = stDenied ∧
      State.reset.headerCheck { it with bytes := head 0x99 0xFF 1 0 [] } (opRow 0x99) = stBadOpcode ∧ stBadOpcode ≠ stOk ∧ stBadOpcode ≠ stDenied) ∧
    (let s := inboxS [] [(9, [it]), (10, [{ it with started := true }])]
     s.activating = false ∧ (s.partn 9).fenced = false ∧ s.inProg 9 = none ∧ nextItem (s.queue 9) = some it ∧
     s.inProg 10 = some { it with started := true } ∧ it ∈ startable (s.queue 9)) ∧
    (∀ n ∈ [0, 1], let x := { it with started := n == 1 }
     let s := { inboxS [] [(9, [x])] with ticks := 101 }
     (s.queue 9).find? (fun i => i.expired s.ticks) = some x ∧ (x.started = true ↔ n = 1) ∧ ((opRow x.op).map (·.undo)).getD false = false) ∧
    (let s := { inboxS [] [(9, [it])] with isls := [(0, { own := 0x89000000#32 })], ports := [(160, { st := 4 })] }
     s.portsLost 9 = true ∧ (inboxS [] []).portsLost 9 = false ∧ (opRow 0x46).map (·.undo) = some true) ∧
    (let s := fwS 10 (item 0x56 9 [])
     s.inProg 10 = some (item 0x56 9 []) ∧ (item 0x56 9 []).op = 0x56 ∧ (item 0x56 9 []).part < 10) := by
  unfold State.stagedPp
  repeat' apply And.intro
  all_goals decide +kernel

/-- A plan entry: slot columns, halves, tenant. -/
def planBytes (x0 x1 h tenant : Nat) : List Byte :=
  [BitVec.ofNat 8 x0, BitVec.ofNat 8 x1, BitVec.ofNat 8 h, 0] ++ toBytes 2 tenant ++ List.replicate 26 0

/-- Connection settings of a queue pair with MTU 4,096. -/
def qpBytes : List Byte := List.replicate 46 0 ++ toBytes 2 4096 ++ [0, 0, 0, 0, 1] ++ List.replicate 11 0

/-- The management commands in progress with parameters at both ends of their ranges. -/
theorem witness_CommandsInspectAndConfigure :
    (∀ op ∈ [0x00, 0x02], let i := item op 0xFF []
     (fwS 10 i).fwUp = true ∧ (fwS 10 i).inProg 10 = some i ∧ i.op = op) ∧
    ((item 0x01 0 [0xFF, 3]).fld 32 2 < 1024 ∧ 1024 ≤ (item 0x01 0 [0, 4]).fld 32 2) ∧
    (let i := item 0x10 0 ([2] ++ List.replicate 31 0 ++ planBytes 0 1 3 1 ++ planBytes 2 4 3 2)
     let ps := (List.range 2).map (fun p => planEntry ((i.bytes.drop (64 + 32 * p)).take 32))
     (fwS 10 i).inProg 10 = some i ∧ i.op = 0x10 ∧ i.fld 32 1 = 2 ∧ 64 + 32 * 2 ≤ i.bytes.length ∧
     ((i.bytes.take 64).drop 33).all (· == 0) = true ∧ (i.bytes.drop (64 + 32 * 2)).all (· == 0) = true ∧ ps.all PlanPart.ok = true ∧
     planClash [] ps = false ∧ ps.any (fwS 10 i).planSeam = false ∧ planClash ps ps = true ∧ 10 < (item 0x10 0 [11]).fld 32 1) ∧
    ((item 0x45 0 [171]).fld 32 1 < 172 ∧ 172 ≤ (item 0x45 0 [172]).fld 32 1) ∧
    (∀ st ∈ [0, 1], let i := item 0x46 0 [171, 1]
     let s := { fwS 10 i with ports := [(171, { st := st })] }
     i.op = 0x46 ∧ i.going = false ∧ i.fld 33 1 ≤ 1 ∧ i.fld 32 1 = 171 ∧ (s.port 171).st = st ∧ s.aon.pkgclass.toNat < 2) ∧
    ((item 0x63 0 (toBytes 2 319)).fld 32 2 < nBlocks ∧ (item 0x63 0 (toBytes 2 319)).cls ≠ 2 ∧ nBlocks ≤ (item 0x63 0 (toBytes 2 320)).fld 32 2) ∧
    (let r : LogRec := { seq := 5, time := 0, event := 1, flags := 0, part := 0, kind := 2, id := 0, coal := 0, data := [] }
     let i := item 0x60 0 (toBytes 4 5 ++ toBytes 2 127)
     1 ≤ i.fld 36 2 ∧ i.fld 36 2 ≤ 127 ∧ (fwS 10 i).aon.log = [] ∧ r.seq = BitVec.ofNat 32 (i.fld 32 4) ∧
     (item 0x60 0 (toBytes 4 5 ++ [0, 0])).fld 36 2 = 0 ∧ 127 < (item 0x60 0 (toBytes 4 5 ++ toBytes 2 128)).fld 36 2) := by
  repeat' apply And.intro
  all_goals decide +kernel

/-- Partition 0 in island 0: its north half's first slot column, open. -/
def partS (i : Item) : State := { fwS 0 i with parts := [(0, { pdef := 0xA0000000#32, isOpen := true })] }

/-- The partition commands in progress with parameters at both ends of their ranges. -/
theorem witness_CommandsInspectAndConfigure_partitions :
    (let i := item 0x14 0 []
     (partS i).fwUp = true ∧ (partS i).inProg 0 = some i ∧ i.op = 0x14) ∧
    (let i := item 0x13 0 (toBytes 4 33 ++ toBytes 4 1)
     let s := { partS i with cobs := [], blks := (List.range 320).map (fun b => (b, ({ fence := false } : Block))) }
     let sl := partSlots (s.partn 0).pdef
     s.fwUp = true ∧ s.inProg 0 = some i ∧ sl = [(0, 0), (5, 5)] ∧ bit (i.fld 32 4) 5 = true ∧
     (∀ e ∈ sl, s.slotActive e.2 = false ∧ ∀ j < 16, (s.blk (blkOfSlot e.2 j)).fence = false) ∧
     (let all := sl.foldl (fun a e => a + 2 ^ e.1) 0
      i.fld 32 4 &&& all = i.fld 32 4 ∧ i.fld 36 4 &&& all = i.fld 36 4)) ∧
    (let i := item 0x30 0 (toBytes 2 0 ++ toBytes 2 65535)
     (partS i).inPart 0 (i.fld 32 2) = true ∧ (partS i).inPart 0 ((item 0x30 0 (toBytes 2 319)).fld 32 2) = false) ∧
    (∀ op ∈ [0, 1, 2], let i := item 0x31 0 ([BitVec.ofNat 8 op, 0] ++ toBytes 2 15 ++ toBytes 4 0x7FFFFFFF)
     let s := { partS i with blks := [(0, { fence := false, sigperm := 0x8000 })] }
     s.inProg 0 = some i ∧ i.fld 34 2 < 5120 ∧ i.fld 36 4 < 2 ^ 31 ∧ s.inPart 0 (i.fld 34 2 / 16) = true ∧ (s.blk 0).fence = false ∧
     (s.blk 0).rstFence = false ∧ (s.blk 0).sigperm.getLsbD (i.fld 34 2 % 16) = true ∧ i.fld 32 1 = op ∧
     syncValue (lget 0 (s.blk 0).sync 15) + i.fld 36 4 < 2 ^ 31) ∧ 2 < (item 0x31 0 [3]).fld 32 1 ∧
    (let i := item 0x40 0 [0, 15, 2, 1, 15, 63]
     let s := { partS i with ports := [(15, { st := 2 })] }
     i.fld 32 1 < 10 ∧ (s.isl (i.fld 32 1)).part = 0 ∧ i.fld 33 1 ≤ 15 ∧ s.bindBusy 15 = false ∧ i.fld 34 1 ≤ 2 ∧ i.fld 35 1 ≤ 1 ∧
     i.fld 37 1 ≤ 63 ∧ i.fld 36 1 < 160 ∧ (s.isl (15 / 16)).part = 0 ∧ s.portUp 15 = true ∧
     (∀ m < 160, m ≠ 16 * 0 + 15 → sbValid (s.sbind m) = true → sbPort (s.sbind m) ≠ 15)) ∧
    (let i := item 0x42 0 (List.replicate 14 0 ++ toBytes 2 4095 ++ [7])
     i.fld 32 1 < 10 ∧ ((partS i).isl 0).part = 0 ∧ i.fld 46 2 ≤ 4095 ∧ i.fld 48 1 ≤ 7 ∧
     ((partS i).nte 0).qps.any (fun e => e.2.stat == 1) = false) ∧
    (∀ st ∈ [0, 1], let i := item 0x43 0 ([0, 0] ++ toBytes 2 511 ++ List.replicate 42 0 ++ toBytes 2 4096 ++ [0, 0, 0, 0, 1])
     let isl : Island := { powered := true, own := 0x80000000#32, nte := { qalloc := 512, qps := [(511, { stat := st })] } }
     let s := { partS i with isls := [(0, isl)] }
     s.inProg 0 = some i ∧ i.fld 32 1 = 0 ∧ i.fld 34 2 = 511 ∧ (s.isl 0).part = 0 ∧ (qpSettings i).ok = true ∧ 511 < (s.nte 0).qalloc ∧
     (s.qp 0 511).stat = st ∧ ((partS i).nte 0).qalloc ≤ 511) ∧
    (∀ n ∈ [0, 1], let i := item 0x44 0 ([0, 0] ++ toBytes 2 511)
     let a : NteAcc := { tag := 0, qp := if n = 0 then 0 else 511, use := .place, psn := 0, dst := 0, acc := ctlWr 0 0 }
     let isl : Island := { powered := true, own := 0x80000000#32, nte := { accs := [a] } }
     let s := { partS i with isls := [(0, isl)] }
     i.fld 34 2 < 512 ∧ (s.isl 0).part = 0 ∧
     (((s.nteTake 0).nte 0).accs.any (fun a => a.qp == 511 && (a.use == .place || a.use == .recv)) = true ↔ n = 1)) := by
  repeat' apply And.intro
  all_goals decide +kernel

/-- The base point of P-384 (FIPS 186-4), as OPEN_PARTITION takes a key; with its last bit changed it is no point of the curve. -/
def p384G (last : Nat) : List Byte :=
  4 :: (toBytes 48 0xaa87ca22be8b05378eb1c71ef320ad746e1d3b628ba79b9859f741e082542a385502f25dbf55296c3a545e3872760ab7).reverse ++
    (toBytes 48 (0x3617de4a96262c6f5d9e98bf9292dc29f8f41dbd289a147ce9da3113b5f0b8c00a60b1ce1d7e819d7a431d7c90ea0e00 + last)).reverse
theorem test_p384Point : p384Point (p384G 0x5F) = true ∧ p384Point (p384G 0x5E) = false := by decide +kernel

/-- A management command in progress for partition 0, closed or open. -/
def mgS (i : Item) (op : Bool) : State := { fwS 10 i with parts := [(0, { pdef := 0xA0000000#32, isOpen := op })] }

/-- The recovery commands in progress: no action and no self-test in the partition, blocks and engines of the partition and not. -/
theorem witness_RecoveryActionsFenceDrainClearAndLift_commands :
    (∀ op ∈ [0x50, 0x51, 0x52, 0x53, 0x54, 0x55, 0x12], let i := item op 0 [0, 0, 0, 0]
     let s := mgS i true
     s.fwUp = true ∧ canonFrom [] 0 s.queues = true ∧ s.inProg 10 = some i ∧ i.part = 0 ∧ i.op = op ∧ (∀ a ∈ s.aon.acts, a.part ≠ 0) ∧
     s.testing 0 = false ∧ (s.partn 0).isOpen = true ∧ s.inProg 0 = none ∧ s.inPart 0 (i.fld 32 2) = true ∧ (s.isl 0).stRun = none ∧
     (s.pzActive 0 = true → i.fld 34 1 = ctlCobble (slotOfBlk 0)) ∧ engExists 0 (i.fld 34 1) = true ∧ (s.contexts 0 0).length ≤ 32) ∧
    (∀ n ∈ [0, 1], let i := item 0x11 0 (List.replicate 31 0 ++ [1, BitVec.ofNat 8 n] ++ p384G 0x5F)
     let s := mgS i false
     s.inProg 10 = some i ∧ (s.partn 0).isOpen = false ∧ ofBytes ((i.bytes.drop 32).take 32) ≠ 0 ∧ i.fld 64 1 = n ∧
     p384Point ((i.bytes.drop 65).take 97) = true) ∧
    (let i := item 0x52 0 (toBytes 2 319)
     (mgS i true).inPart 0 (i.fld 32 2) = false ∧ i.fld 32 2 < nBlocks) ∧ (item 0x55 0 [0, 0]).fld 32 1 = 0 ∧ (item 0x55 0 [1, 0, 0, 0]).fld 34 2 = 0 := by
  repeat' apply And.intro
  all_goals decide +kernel

/-- An action of partition 0 in progress, at 500,000 ticks, with cobble 0 as given and the context running. -/
def actS (a : Action) (k : Cobble) : State :=
  let v : Variant := { dims := [1, 0, 0, 0], entc := 64, climc := 4096, trbc := 0, entp := 0, climp := 0, trbp := 0, map := 0 }
  let m : Image := { base := 0, kind := 1, ndim := 1, lmb := 0, len := 1, digest := [], vars := [v], segs := [], ress := [] }
  let p : Part := { pdef := 0xA0000000#32, isOpen := true, image := some m, usable := 1, run := 1 }
  { core k with aon := { fw := 1, acts := [a] }, parts := [(0, p)], ticks := 500000 }

def action (kind : ActKind) (ph tries : Nat) : Action := { kind := kind, part := 0, phase := ph, tick := 0, level := 1, cause := 1, tries := tries }

/-- Actions of each kind, drained and not, past their limits; the phases that order, await and end a clear; a partition to be lost; a hung
engine; suspects in replay, held and judged. -/
theorem witness_RecoveryActionsFenceDrainClearAndLift :
    (∀ e ∈ [(ActKind.switch, Instr.contextSwitch 0), (.reset, .resetPartition 0), (.open, .openPartition 0), (.close, .closePartition 0),
        (.block, .resetBlock 0), (.cobble, .resetCobble 0), (.engine, .resetEngine 0 0)],
     (let s := actS (action e.1 1 0) run
      actionRuns s (action e.1 1 0) ∧ actionRow (action e.1 1 0) e.2 ∧ s.fwUp = true ∧ canonFrom [] 0 s.queues = true ∧
      s.actDrained (action e.1 1 0) = true ∧ s.aon.acts[0]? = some (action e.1 1 0) ∧ 0 + (action e.1 1 0).drainLimit ≤ s.ticks)) ∧
    (let k := { run with loads := [{ tag := 0, dest := .int 3, size := 8, signed := false, addr := 0, pc := 0, tw := false }] }
     (actS (action .cobble 1 0) k).actDrained (action .cobble 1 0) = false ∧ 29999 < (action .cobble 1 0).tick + (action .cobble 1 0).drainLimit) ∧
    (∀ ph ∈ [2, 4, 5, 6], (action .reset ph 0).rank = 2 ∧ actionRuns (actS (action .reset ph 0) run) (action .reset ph 0)) ∧
    (let s := actS (action .reset 5 0) run
     (s.partn 0).isOpen = true ∧ (s.partn 0).dseq < 2 ^ 56 ∧ s.islsOf 0 = [0] ∧ (s.isl 0).ordered = false ∧ (s.isl 0).cleared = false ∧
     (action .reset 5 0).tick + 50000 ≤ s.ticks ∧ (({ s with isls := [(0, { own := 0x80000000#32, ordered := true })] } : State).isl 0).ordered = true) ∧
    (let s := actS (action .cobble 2 0) run
     ((s.cob 0).pz = false ∧ (s.partn 0).run = 1 ∧ (s.partn 0).image.isSome = true ∧ (s.slotOf 0).active = false ∧
      ((s.partn 0).image.bind (fun m => m.vars[(s.partn 0).variant]?)).isSome = true)) ∧
    (∀ t ∈ [199999, 200000], let s := { actS (action .engine 1 0) run with ticks := t }
     (s.ticks < (action .engine 1 0).tick + 200000 ↔ t = 199999)) ∧
    ((actS (action .reset 5 2) run).aon.acts.find? (fun a => a.kind == .reset && a.part == 0 && a.tries == 2) ≠ none) ∧
    (let s := blkS { chans := [(15, { stat := 1, descs := [desc] })], wd := [(0, 100000)] }
     s.engHung 0 0 = true ∧ (core run).engHung 0 0 = false ∧ s.engOff 0 0 = false ∧ s.aon.susp = []) ∧
    (∀ v ∈ [0, 1, 2], let x : Suspect := { engine := 0, eblk := 0, blk := 0, id := 15, verdict := v }
     let s := { blkS { engstat := 0x10 } with aon := { fw := 1, susp := [x] } }
     let xs := s.aon.susp.filter (fun x => x.isOf 0 0)
     (s.blk 0).engstat.getLsbD 4 = true ∧ s.aon.acts = [] ∧ (xs.find? (fun x => x.verdict == 1) = none ↔ v ≠ 1) ∧
     (xs.find? (fun x => x.verdict == 0) = some x ↔ v = 0) ∧ s.replayed x = true ∧
     (∀ y ∈ s.aon.susp, y.alike x = true → y.isOf 0 0 = false → y.verdict = 0) ∧ ((∀ x ∈ xs, x.verdict ≠ 0 ∧ x.verdict ≠ 1) ↔ v = 2)) := by
  unfold actionRuns actionRow
  repeat' apply And.intro
  all_goals decide +kernel

/-- LOAD_IMAGE items whose context runs, whose manifest is no manifest, whose image is at a wrong base; UNLOAD_IMAGE; LAUNCH with no image, with a running
context, with a zero dimension, out of service, past every variant, and with one that fits. What LOAD_IMAGE answers once its digest matches has no
witness: nothing evaluates the digest. -/
theorem witness_TheStartAndTheLaunch_images :
    (let i := item 0x20 0 (toBytes 8 1 ++ List.replicate 96 0)
     (partS i).fwUp = true ∧ (partS i).inProg 0 = some i ∧ i.op = 0x20 ∧ ((partS i).partn 0).run ≠ 1 ∧
     formatCheck (i.bytes.drop manAt) (imageOf (i.fld 32 8) (i.bytes.drop manAt)) ≠ 0 ∧ ((actS (action .reset 1 0) run).partn 0).run = 1) ∧
    (let seg := toBytes 8 0 ++ toBytes 4 1 ++ [1, 0xFF] ++ List.replicate 18 0
     let var := toBytes 4 1 ++ List.replicate 14 0 ++ toBytes 2 4096 ++ List.replicate 12 0
     let man := toBytes 4 0x5E4D0C81 ++ [1, 1, 1, 1, 1, 0, 0, 0] ++ toBytes 4 1 ++ List.replicate 48 0 ++ var ++ seg
     let i := item 0x20 0 (toBytes 8 1 ++ List.replicate 96 0 ++ man)
     (partS i).inProg 0 = some i ∧ formatCheck (i.bytes.drop manAt) (imageOf (i.fld 32 8) (i.bytes.drop manAt)) = 0 ∧
     (partS i).imageCheck 0 i (imageOf (i.fld 32 8) (i.bytes.drop manAt)) (i.bytes.drop manAt) [0] ≠ 0) ∧
    ((partS (item 0x21 0 [])).inProg 0 = some (item 0x21 0 []) ∧ (item 0x21 0 []).op = 0x21) ∧
    (∀ e ∈ [(1, 0), (2, 0), (0, 0), (1, 1)], let i := item 0x22 0 (toBytes 4 e.1 ++ List.replicate 12 0)
     let v : Variant := { dims := [1, 0, 0, 0], entc := 64, climc := 4096, trbc := 0, entp := 0, climp := 0, trbp := 0, map := 0 }
     let m : Image := { base := 0, kind := 1, ndim := 1, lmb := 0, len := 1, digest := [], vars := [v], segs := [], ress := [] }
     let p : Part := { pdef := 0xA0000000#32, isOpen := true, image := some m, usable := 1, run := e.2 }
     let isl : Island := { present := true, powered := true, own := 0x80000000#32 }
     let s := { partS i with parts := [(0, p)], isls := [(0, isl)], ports := [(0, { st := 2 }), (160, { st := 2 })] }
     s.fwUp = true ∧ s.inProg 0 = some i ∧ i.op = 0x22 ∧ (∀ n ∈ s.islsOf 0, (s.isl n).stRun = none) ∧ (s.partn 0).image = some m ∧
     ((partS i).partn 0).image = none ∧ ((s.partn 0).run = 1 ↔ e.2 = 1) ∧
     let shape := (List.range 4).map (fun j => i.fld (32 + 4 * j) 4)
     ((∀ j < 4, (j < m.ndim ↔ shape.getD j 0 ≠ 0)) ↔ e.1 ≠ 0) ∧ s.service 0 = true ∧ (partS i).service 0 = false ∧
     (covers m.ndim shape v = true ↔ e.1 ≤ 1) ∧ s.varCheck 0 m true 0 = none ∧ 0 ∈ s.partBlocks 0 ∧ (s.blk 0).fence = false ∧
     (s.slotOf 0).active = false) := by
  repeat' apply And.intro
  all_goals decide +kernel

/-- A die in a start stage. -/
def startS (a : Aon) : State := { State.reset with aon := a }

/-- PWRGOOD low and high, RESET_N low and high; RESET_CHIP before and after its reply; each stage before and after its limits, with and without edges,
rails, ports in training, a management port; a fence column to skip; a start that is late. A boot code image that verifies has no
witness: nothing evaluates the signature. -/
theorem witness_TheStartAndTheLaunch_stages :
    ((startS { pwrgood := false }).aon.pwrgood = false ∧ (startS { pwrgood := false, stage := 0 }).aon.stage = 0 ∧ State.reset.aon.pwrgood = true ∧
      State.reset.aon.resetN = true ∧ (startS { stage := 0 }).aon.stage = 0 ∧ (startS { stuck := true }).aon.stuck = true ∧ (startS { stage := 7 }).aon.stage = 7) ∧
    (∀ n ∈ [0, 1], let i := { item 0x57 0xFF [] with going := n == 1 }
     (fwS 10 i).fwUp = true ∧ (fwS 10 i).inProg 10 = some i ∧ i.op = 0x57 ∧ (i.going = true ↔ n = 1) ∧ (fwS 10 i).aon.pwrgood = true ∧
     (fwS 10 i).aon.resetN = true) ∧
    (State.reset.aon.stage = 1 ∧ State.reset.aon.stuck = false ∧ State.reset.aon.testmode = false ∧ (startS { testmode := true }).aon.testmode = true) ∧
    (∀ t ∈ [1999999, 2000000, 99999999, 100000000], let s := { startS { stage := 2 } with ticks := t }
     s.aon.edges = false ∧ (s.aon.stageTick + 100000000 ≤ s.ticks ↔ t = 100000000) ∧ (s.ticks < s.aon.stageTick + 2000000 ↔ t = 1999999)) ∧
    (let s := { startS { stage := 2, edges := true, vins := true } with isls := [(5, { present := true })] }
     s.aon.edges = true ∧ (∀ i < 10, (s.isl i).present = true → s.railOk i = true) ∧
     (let u := { s with isls := [(4, { present := true })] }
     ∃ i < 10, (u.isl i).present = true ∧ u.railOk i = false) ∧ (s.port 170).st = 0) ∧
    (∀ st ∈ [0, 1, 2], let s := { startS { stage := 3 } with ports := [(170, { st := st })] }
     ((s.port 170).st = 1 ↔ st = 1) ∧ (s.port 171).st ≠ 1 ∧ (s.mgmtPort = none ↔ st ≠ 2)) ∧
    (let s := startS { stage := 4 }
     s.aon.stage = 4 ∧ s.aon.pkgclass.toNat < 2 ∧ (s.port 159).st = 0) ∧
    (∀ st ∈ [1, 2], let s := { startS { stage := 5 } with ports := [(169, { st := st })] }
     ((∃ p < 170, (s.port p).st = 1) ↔ st = 1)) ∧
    (let s := { startS { stage := 6, soft := [(319, 15)], nvPlan := [{ sx0 := 0, sx1 := 4, halves := 3, dbgen := false, tenant := 1, modes := 0, wpol := [] }] } with
      isls := [(9, { present := true })] }
     s.aon.stage = 6 ∧ s.aon.nvPlan[0]?.isSome = true ∧ (s.isl (islOfBlk 319)).present = true ∧ s.fuse 0 319 ≠ 1 ∧ s.badColumns 319 = [15] ∧
     s.badColumns 318 = [] ∧ 15 ≠ 17) ∧
    (∀ t ∈ [299999999, 300000000], let s := { startS { stage := 2 } with ticks := t }
     (s.aon.startTick + 300000000 ≤ s.ticks ↔ t = 300000000) ∧ s.aon.stage ≠ 0 ∧ s.aon.stage ≠ 7) := by
  repeat' apply And.intro
  all_goals decide +kernel

/-- Power readings and other messages at a host port and a management port; readings missing for just below and at each limit; status due and not;
the power commands at both ends of their parameters; an island slewing, held, off, past its hold; measurements allowed and not;
alert asserted and released; a re-plan due; sensors at and below the trip temperature. -/
theorem witness_PowerIsMeasuredGrantedAndProtected :
    (∀ e ∈ [(0xE0, 10), (0xE0, 9), (0x00, 11)], let m := BitVec.ofNat 8 e.1 :: List.replicate 31 0
     let s := { core run with aon := { fw := 1, sustained := 100 }, ports := [(160 + e.2, { st := 2, inbox := [(0, [m])] })] }
     s.stagedPp e.2 ∧ s.fwUp = true ∧ lget [] (s.port (ppPort e.2)).inbox 0 = m :: [] ∧ (fld m 0 1 ≠ 0xE0 ↔ e.1 = 0) ∧
     State.reset.aon.sustained = 0) ∧
    (∀ t ∈ [19999, 20000, 99999, 100000], let s := { core run with aon := { fw := 1, lastRead := some 0 }, ticks := t }
     s.fwUp = true ∧ s.aon.lastRead = some 0 ∧ (0 + 20000 ≤ s.ticks ↔ t ≠ 19999) ∧ (s.aon.statTick + 100000 ≤ s.ticks ↔ t = 100000) ∧
     s.aon.missing = 0) ∧
    (∀ e ∈ [(100, 720), (720, 900), (99, 900)], let i := item 0x70 0xFF (toBytes 2 e.1 ++ toBytes 2 e.2)
     (fwS 10 i).inProg 10 = some i ∧ i.op = 0x70 ∧
     ((100 ≤ i.fld 32 2 ∧ i.fld 32 2 ≤ 720 ∧ i.fld 32 2 ≤ i.fld 34 2 ∧ i.fld 34 2 ≤ 900) ↔ e.1 ≠ 99)) ∧
    (∀ v ∈ [31, 32, 255], let i := item 0x72 0xFF (List.replicate 9 0 ++ [BitVec.ofNat 8 v])
     i.op = 0x72 ∧ ((∀ n < 10, i.fld (32 + n) 1 = 0xFF ∨ i.fld (32 + n) 1 < 32) ↔ v ≠ 32)) ∧ (item 0x71 0 []).op = 0x71 ∧
    (∀ e ∈ [(511, 60), (512, 1), (0, 0), (0, 61)], let i := item 0x73 0xFF (toBytes 2 e.1 ++ toBytes 2 e.2)
     let s := { fwS 10 i with aon := { fw := 1, nvAge := (List.range 512).map (fun n => (n, [1])) } }
     i.op = 0x73 ∧ ((i.fld 32 2 ≤ 511 ∧ 1 ≤ i.fld 34 2 ∧ i.fld 34 2 ≤ 60) ↔ e = (511, 60)) ∧
     (e = (511, 60) → ∀ j < i.fld 34 2, lget [] s.aon.nvAge ((i.fld 32 2 + j) % 512) ≠ [])) ∧
    (∀ t ∈ [999999, 1000000], let s := { core run with aon := { fw := 1 }, ticks := t, isls := [(9, { powered := true, brown := true, own := 0x80000000#32 })] }
     (s.isl 9).brown = true ∧ ((s.isl 9).brownTick + 1000000 ≤ s.ticks ↔ t = 1000000) ∧ s.fwUp = true ∧ (s.isl 9).part ≠ 0xFF ∧
     (∀ x ∈ s.aon.acts, x.part ≠ (s.isl 9).part) ∧ (s.isl 8).powered = false ∧ (s.isl 8).part = 0xFF) ∧
    (∀ t ∈ [9999, 10000], let s := { core run with ticks := t, isls := [(9, { powered := true })] }
     3 < 4 ∧ 0 < 100 ∧ 90 ≤ 100 ∧ 100 ≤ 110 ∧ (s.isl 9).slew = false ∧ (s.isl 9).brown = false ∧ (s.isl 9).powered = true ∧ s.aon.alertN = true ∧
     s.aon.thermTrip = false ∧ ((s.isl 9).quiet + 10000 ≤ s.ticks ↔ t = 10000) ∧ (s.isl 9).quiet + 5000 ≤ s.ticks) ∧
    (∀ t ∈ [99999, 100000], let s := { core run with aon := { fw := 1, alertN := false, alertRel := some 0 }, ticks := t }
     s.aon.alertN = false ∧ s.aon.alertRel = some 0 ∧ (0 + 100000 ≤ s.ticks ↔ t = 100000)) ∧
    (∀ t ∈ [8639999999999, 8640000000000], let s := { core run with aon := { fw := 1 }, ticks := t, isls := [(9, { present := true })] }
     (s.aon.replanTick + 8640000000000 ≤ s.ticks ↔ t = 8640000000000) ∧ s.aon.alertN = true ∧ s.aon.alertRel = none ∧ (s.isl 9).present = true) ∧
    (State.reset.aon.vaon = true ∧ 10 ≤ 10 ∧ 124 < 125 ∧ 125 ≤ 125) := by
  unfold State.stagedPp
  repeat' apply And.intro
  all_goals decide +kernel

/-- Firmware that runs, restarts, is stopped; a restart 10 s ago and one just under; attention pending; an unreachable management port; a nonce and a
lockout; a record to copy; every command of the management family in progress with its parameters at and past their ends. -/
theorem witness_TheManagementCoreRestartsAttestsUpdatesAndDumps :
    (∀ fw ∈ [0, 1, 2, 3], canonFrom [] 0 (startS { fw := fw }).queues = true ∧ (startS { fw := fw }).aon.fw = fw ∧
      (startS { fw := fw }).aon.remain ≠ 0 ∧ (startS { fw := fw, remain := 0 }).aon.remain = 0) ∧
    (∀ t ∈ [999999999, 1000000000], let s := { startS { fw := 1, lastRestart := some 0 } with ticks := t }
     s.aon.lastRestart = some 0 ∧ (0 + 1000000000 ≤ s.ticks ↔ t = 1000000000)) ∧
    (∀ t ∈ [99999, 100000], let s := { startS { attn := 0x81, unreach := some (0, 0) } with ticks := t }
     s.aon.attn ≠ 0 ∧ s.aon.testmode = false ∧ s.aon.vaon = true ∧ (s.aon.attnSent + 100000 ≤ s.ticks ↔ t = 100000) ∧
     s.aon.attn.getLsbD 1 = false ∧ s.aon.unreach = some (0, 0)) ∧
    (let s := { startS { fw := 1 } with parts := [(9, { isOpen := true, nonce := some ([], 0), dbgUntil := some 5, dseq := 2 ^ 56 - 1 })] }
     s.fwUp = true ∧ (s.partn 9).isOpen = true ∧ (s.partn 9).dseq < 2 ^ 56 ∧ (s.partn 9).nonce = some ([], 0) ∧ (s.partn 9).dbgUntil = some 5 ∧
     (s.partn 9).copyBase = none ∧ s.mgmtPort = none) ∧
    (let r : DumpRec := { kind := 1, part := 9, tenant := 0, seq := 0, bytes := List.replicate 64 0 }
     let s := { startS { fw := 1, dumps := [r] } with parts := [(9, { copyBase := some 0, copyPos := 2 ^ 23 - 64 })], ports := [(170, { st := 2 })] }
     (s.partn 9).copyBase ≠ none ∧ s.mgmtPort ≠ none ∧ r ∈ s.aon.dumps ∧ (s.partn 9).copySeq ≤ r.seq ∧ (s.partn 9).copyPos + r.bytes.length ≤ 2 ^ 23) ∧
    (∀ op ∈ [0x90, 0x96, 0xF0, 0xF1, 0xF2, 0xF3, 0xF4], (fwS 10 (item op 0 [])).inProg 10 = some (item op 0 []) ∧ (item op 0 []).op = op) ∧
    ((item 0x91 0 [1]).fld 32 1 ≤ 1 ∧ 1 < (item 0x91 0 [2]).fld 32 1 ∧ 8160 < (item 0x61 0 ([0, 0, 0, 0] ++ toBytes 2 8161)).fld 36 2 ∧
      (item 0x61 0 ([0, 0, 0, 0] ++ toBytes 2 8160)).fld 36 2 ≤ 8160 ∧ 2 ^ 48 ≤ (item 0x62 0 (toBytes 8 (2 ^ 48))).fld 32 8 ∧
      (item 0x62 0 (toBytes 8 (2 ^ 48 - 1))).fld 32 8 < 2 ^ 48) ∧
    (let i := item 0x92 0 (toBytes 4 4194272 ++ List.replicate 28 0 ++ List.replicate 32 1)
     i.op = 0x92 ∧ i.fld 32 4 % 32 = 0 ∧ (i.bytes.drop 64).length % 32 = 0 ∧ i.fld 32 4 + (i.bytes.drop 64).length ≤ 4194304 ∧ 64 ≤ i.bytes.length ∧
     ((i.bytes.take 64).drop 36).all (· == 0) = true ∧ (item 0x92 0 (toBytes 4 1)).fld 32 4 % 32 ≠ 0) ∧
    (∀ n ∈ [0, 1], let i := { item 0x93 0 [] with going := n == 1 }
     let s := fwS 10 i
     s.inProg 10 = some i ∧ i.op = 0x93 ∧ (i.going = true ↔ n = 1) ∧ (∀ q < 10, s.inProg q = none) ∧
     (∃ q < 10, ({ s with queues := [(9, [i]), (10, [i])] } : State).inProg q ≠ none)) ∧
    (∀ n ∈ [0, 1, 2], let i := item 0x95 0 (List.replicate 96 0)
     let s := { fwS 10 i with parts := [(0, { dbgFails := n })] }
     i.op = 0x95 ∧ s.unlockOk 0 ((i.bytes.drop 32).take 96) = false ∧ (s.partn 0).dbgFails = n ∧ (s.partn 0).dbgUntil = none) ∧
    (∀ n ∈ [0, 1], let i := item 0xF0 0 [2, 0, 0, 0, 0]
     let s := { fwS 10 i with parts := [(0, { debug := n == 1 })] }
     ((s.partn 0).debug = true ↔ n = 1) ∧ s.scope i = some [0] ∧ s.scopeReset i [0] = false ∧ s.scope (item 0xF0 0 [3]) = none ∧
     s.inPart 0 ((item 0xF2 0 [0, 0, 0]).fld 32 2) = true ∧ s.inPart 0 ((item 0xF3 0 (toBytes 2 5119)).fld 32 2 / 16) = false ∧
     s.inPart 0 ((item 0xF3 0 (toBytes 2 15)).fld 32 2 / 16) = true) ∧
    (∀ m ∈ [0, 1, 2, 3, 4], let i := item 0xF4 0 [BitVec.ofNat 8 m]
     let s := { fwS 10 i with trace := { part := some 0, running := true }, parts := [(0, { debug := true })] }
     s.inProg 10 = some i ∧ i.fld 32 1 = m ∧ s.trace.part = some 0 ∧ s.trace.running = true ∧ s.trace.part ≠ some 9 ∧ (s.partn 0).dseq < 2 ^ 56) := by
  repeat' apply And.intro
  all_goals decide +kernel

/-- The test port with TESTMODE 0 and 1, a shipped die; a fuse field that is blank and one that is programmed; self-tests asked for with every
parameter at and past its end, of an idle and a busy island, running, at their last segment, given up. -/
theorem witness_TestPortFusesAndSelfTest :
    ((startS { testmode := true }).aon.testmode = true ∧ State.reset.aon.testmode = false ∧ State.reset.shipped = false ∧
      ({ State.reset with fuses := [(11 * 65536, 1)] } : State).shipped = true) ∧
    (let s := { startS { testmode := true } with fuses := [(65535, 1)] }
     65535 < 65536 ∧ s.aon.bootph = 0 ∧ s.shipped = false ∧ (∀ e ∈ s.fuses, e.1 ≠ 1 * 65536 + 0) ∧ ¬ ∀ e ∈ s.fuses, e.1 ≠ 0 * 65536 + 65535) ∧
    (∀ n ∈ [0, 1], let i := { item 0x80 0xFF (toBytes 2 1023 ++ toBytes 2 3) with going := n == 1 }
     let s := { fwS 10 i with isls := [(0, { present := true, powered := true, own := 0x80000000#32 })] }
     s.fwUp = true ∧ s.inProg 10 = some i ∧ i.op = 0x80 ∧ i.fld 32 2 < 1024 ∧ i.fld 34 2 < 4 ∧ (i.going = true ↔ n = 1) ∧ s.testRuns = false ∧
     (∀ n < 10, bit (i.fld 32 2) n = true → (s.isl n).stRes ≠ 5) ∧ s.idleIsl 0 = true ∧ s.idleIsl 9 = false) ∧
    (1024 ≤ (item 0x80 0 (toBytes 2 1024)).fld 32 2 ∧ 4 ≤ (item 0x80 0 (toBytes 2 0 ++ toBytes 2 4)).fld 34 2 ∧ (item 0x81 0 []).op = 0x81) ∧
    (let s := { core run with aon := { fw := 1 }, isls := [(9, { present := true, stQueued := 1 })] }
     s.fwUp = true ∧ s.testRuns = false ∧ (∃ n < 10, (s.isl n).stQueued ≠ 0 ∧ s.idleIsl n = true)) ∧
    (∀ n ∈ [0, 2], let s := { core run with isls := [(9, { present := true, stRun := some (1, n) })] }
     s.testRuns = true ∧ (s.isl 9).stRun = some (1, n) ∧ (s.isl 9).brown = false ∧ s.wanted 9 = false ∧ (n + 1 < segments 1 ↔ n = 0) ∧
     islOfBlk 319 = 9 ∧ (s.isl 8).stRun = none) ∧
    (let s := { core run with aon := { fw := 1, acts := [action .reset 0 0] }, isls := [(0, { own := 0x80000000#32, stRun := some (3, 12) })] }
     s.wanted 0 = true ∧ segments 3 ≤ 12 + 1) := by
  repeat' apply And.intro
  all_goals decide +kernel

/-- A timebase that counts and does not, valid and not, held and not; counters at and below 2^48 − 1 and at all ones; saturations, log slots, log records
to write and to acknowledge; register reads and writes; registers locked and not. -/
theorem witness_TimeLogsCountersAndLockedRegisters :
    ((startS { counting := true }).aon.counting = true ∧ State.reset.aon.counting = false ∧ State.reset.aon.holdTo = none ∧
      (startS { holdTo := some 5 }).aon.holdTo = some 5 ∧ State.reset.aon.tbValid = false ∧
      ({ startS { tbValid := true } with pktime := 5 } : State).aon.tbValid = true ∧ (4#64) < ({ State.reset with pktime := 5 } : State).pktime) ∧
    (∀ v ∈ [2 ^ 48 - 1, 2 ^ 64 - 1, 0], let s := { State.reset with isls := [(9, { cnt := [(7, BitVec.ofNat 64 v)] })] }
     ((s.isl 9).counter 7).toNat = v ∧ (((s.isl 9).counter 7).toNat % 2 ^ 48 = 2 ^ 48 - 1 ↔ v ≠ 0)) ∧
    (({ State.reset with satDue := [(2, 0, 1)] } : State).satDue = (2, 0, 1) :: [] ∧ State.reset.satDue = [] ∧ State.reset.logSlots = []) ∧
    (let l : LogSlot := { kind := 2, id := 0, event := 1, time := 0, approx := true, part := 0, data := [], coal := 0, mixed := false }
     let r : LogRec := { seq := 0, time := 0, event := 1, flags := 0, part := 0, kind := 2, id := 0, coal := 0, data := [], sent := true }
     ({ State.reset with logSlots := [l] } : State).logSlots ≠ [] ∧ (startS { log := [r] }).aon.log = r :: [] ∧ r.sent = true ∧ r.copied = false ∧
     (startS { log := List.replicate 4096 r }).aon.log.length = 4096 ∧ (startS { log := [r] }).aon.log.length < 4096 ∧ State.reset.mgmtPort = none) ∧
    (let x : Acc := { kind := .rd, space := 3, off := 0x1204, size := 4, remote := true }
     let s := blkS { ctlIn := [x] }
     s.staged 0 ∧ (s.blk 0).ctlIn = x :: [] ∧ x.kind = .rd ∧ x.remote = true ∧ ownRow s 0 (ctlWr 0x1200 1) = false) ∧
    (let s := startS { bootph := 2 }
     s.locked = true ∧ State.reset.locked = false ∧ (State.reset.aon.bootph.toNat < (2#32).toNat % 4 ∧ (2#32).toNat % 4 ≤ 2) ∧
     16 < (17#32).toNat % 32 ∧ (16#32).toNat % 32 ≤ 16) := by
  unfold State.staged
  repeat' apply And.intro
  all_goals decide +kernel

/-! ## Witnesses of further clauses -/

/-- A core that may issue at a word that spells ADD, and at one that spells nothing; an island with no core running, no port that trains and no
replay. -/
theorem witness_EmptyQueueStepsIslands_cores :
    (let s := { core run with mem := [(3, 0x14)] }
     (s.settleWait 0).mayIssue 0 = true ∧ (s.cob 0).badFetch = false ∧ (decodeWord 0 (wRR 0x00 1 2 3 0)).isSome = true ∧
     decodeWord 0 0x34000000#32 = none ∧ s.ready 0 [] [] = true) ∧
    (let s := { State.reset with isls := [(0, { powered := true })], ports := [(0, { st := 2 })] }
     s.runners = [] ∧ (∀ e ∈ s.ports, e.2.st ≠ 1 ∧ e.2.rep = none) ∧ (s.isl 0).powered = true ∧ (s.isl 0).brown = false ∧
     s.pending = []) := by
  repeat' apply And.intro
  all_goals decide +kernel

/-- At the boundary: an interrupt due, with no fault and good fields; a bad fetch with an interrupt due; a core that may not issue. -/
theorem witness_IssueTrapsAndHolds_boundary :
    let d := core { run with ie := true, ienable := 4, ipRsterr := true }
    d.mayIssue 0 = true ∧ d.intDue 0 = true ∧ (d.cob 0).badFetch = false ∧ regIdx (d.cob 0) 39 ≠ none ∧
    (core { run with pc := 4096, ie := true, ienable := 4, ipRsterr := true }).mayIssue 0 = true ∧
    (core { run with halted := true }).mayIssue 0 = false ∧ ((core { run with halted := true }).cob 0).hold ≠ .waitInt ∧ 0 < nCobbles := by
  decide

/-- A bank with 33 requests, which a cobble must wait for; a read that is taken with nothing waiting. -/
theorem witness_BlockStoreAccessesAreQueuedAndAnswered_full :
    (let a : Acc := { kind := .rd, space := 0, off := 0, size := 8 }
     let s := { core { run with ints := [(1, 0x0100000000000000#64)] } with
       blks := [(0, { fence := false, bankq := [(0, List.replicate 33 a)] })] }
     s.ready 0 [39, 1] [] = true ∧ ((s.cob 0).int 1 + (0#12).signExtend 64).toNat = 2 ^ 56 + 0 ∧ 0 < cacheFrom (s.blk 0).nq ∧
     s.pzActive 0 = false ∧ (s.blk 0).nq = (s.blk 0).nqNew ∧ (s.cob 0).loads.length < 4 ∧ (s.blk 0).bankRoom 0 = false ∧
     a.job = 0 ∧ a.space = 0 ∧ ((core run).blk 0).waitq = []) := by decide +kernel

/-- An FE instruction held at issue for its whole FEWAIT. -/
theorem witness_FullEmptyInstructionsAndWaits_held :
    let s := { core { run with feSince := some (3, 4096#64), fewait := 7 } with ticks := 10 }
    (s.cob 0).hold = .none ∧ (s.cob 0).feSince = some (3, 4096#64) ∧ s.mayIssue 0 = true ∧ (s.cob 0).tw = false ∧
    (s.cob 0).fewait ≠ 0 ∧ 3 + (s.cob 0).fewait.toNat ≤ s.ticks := by decide

/-- The ring is free for partition 0 and for boot code; a slot that cannot fuse, one that is busy; a binding that a descriptor uses, one of a cache
fill; an expired item that does and one that does not undo. -/
theorem witness_CommandsInspectAndConfigure_ring :
    let i := item 0x13 0 (toBytes 4 1 ++ toBytes 4 1)
    ringFree (partS i) 0 0 ∧ ringFree (startS { ringStops := 0x10, ringSegs := 0x100 }) 15 9 ∧ (startS { ringStops := 0x10 }).aon.ringWay 4 = none ∧
    (partSlots ((partS i).partn 0).pdef).any (fun e => e == (0, 0)) = true ∧ (partS i).fusable 0 = false ∧
    (let s := { partS i with cobs := [], blks := (List.range 320).map (fun b => (b, ({ fence := false } : Block))) }
     s.fusable 0 = true ∧ (s.slot 0).reqPz = false ∧
     ({ s with cobs := [(0, run)] } : State).slotActive 0 = true) ∧
    (chanS { stat := 1, descs := [{ desc with bound := true, bind := 15 }] }).bindBusy 15 = true ∧
    (chanS { stat := 1, descs := [{ desc with bind := 15 }] }).bindBusy 15 = false ∧
    bits (lget 0 ((partS i).isl 0).sbind 15).toNat 29 2 ≠ 3 ∧
    ((opRow 0x46).map (·.undo)).getD false = true ∧ ((opRow 0x56).map (·.undo)).getD false = false := by
  unfold ringFree
  repeat' apply And.intro
  all_goals decide +kernel

/-- A partition that a reset waits for and one that none does; the second phase past its 8 ms; orders to the islands that the ring reaches. -/
theorem witness_RecoveryActionsFenceDrainClearAndLift_due :
    (∀ n ∈ [0, 1], let a := action .close 6 0
     let s := { actS a run with aon := { fw := 1, acts := [a], resetDue := if n = 1 then [0] else [] } }
     actionRuns s a ∧ a.phase = 6 ∧ (s.aon.resetDue.contains a.part = true ↔ n = 1) ∧ (∀ x ∈ s.aon.acts, x.part = a.part → x.same a = true)) ∧
    (∀ t ∈ [799999, 800000], let s := { actS (action .reset 2 0) run with ticks := t }
     actionRuns s (action .reset 2 0) ∧ ((action .reset 2 0).tick + 800000 ≤ s.ticks ↔ t = 800000)) ∧
    (let s := actS (action .reset 4 0) run
     s.aon.ringq = [] ∧ (s.aon.ringWay 0).isSome = true ∧ 0 ∈ s.islsOf 0) := by
  unfold actionRuns
  repeat' apply And.intro
  all_goals decide +kernel

/-- A start with an edge whose ring has a broken stop: its island is absent, the others are reached. -/
theorem witness_TheStartAndTheLaunch_ring :
    let a : Aon := { stage := 2, edges := true, vins := true, vinn := true }
    a.edges = true ∧ ({ a with ringStops := 0x10, ringSegs := 0x100 } : Aon).ringWay 4 = none ∧
    ({ a with ringStops := 0x10, ringSegs := 0x100 } : Aon).ringWay 9 ≠ none ∧ (startS { bootph := 1, stage := 6 }).aon.stuck = false := by
  decide

/-- A trace record that is due when no other is; its length depends on the opaque cipher. -/
theorem witness_TheManagementCoreRestartsAttestsUpdatesAndDumps_trace :
    (let tr : Trace := { part := some 9, ents := [.marker 0 1] }
     let s := { startS { fw := 1 } with trace := tr, parts := [(9, { copyBase := some 0 })], ports := [(170, { st := 2 })] }
     s.traceRec.map (fun r => (r.part, r.seq)) = [(9, 0)] ∧ s.aon.dumps = [] ∧ (s.partn 9).copySeq ≤ 0 ∧ s.mgmtPort ≠ none) ∧
    State.reset.traceRec = [] ∧ (startS { fw := 1 }).aon.dumps = [] := by
  repeat' apply And.intro
  all_goals decide +kernel

/-- A self-test that an undone command has dropped; one that a command waits for, before and at its last segment. -/
theorem witness_TestPortFusesAndSelfTest_ends :
    (∀ d ∈ [true, false], let s := { core run with isls := [(9, { present := true, stRun := some (1, 0), stDrop := d })] }
     (s.isl 9).stRun = some (1, 0) ∧ (s.isl 9).brown = false ∧ ((s.isl 9).stDrop = true ↔ d = true) ∧ 0 + 1 < segments 1) ∧
    (∀ n ∈ [11, 12], let k : Island := { own := 0x80000000#32, stRun := some (3, n) }
     let s := { core run with aon := { fw := 1, acts := [action .reset 0 0] }, isls := [(0, k)] }
     s.wanted 0 = true ∧ (s.isl 0).stDrop = false ∧ (n + 1 < segments 3 ↔ n = 11)) := by
  repeat' apply And.intro
  all_goals decide +kernel

/-- PWRGOOD low and high at a timebase; the boot code's ring free, at both ends of the locked registers' ranges. -/
theorem witness_TimeLogsCountersAndLockedRegisters_ring :
    (startS { pwrgood := false }).aon.pwrgood = false ∧ State.reset.aon.pwrgood = true ∧ State.reset.aon.counting = false ∧
    (∀ i < 10, ringFree State.reset 15 i ∧ ringFree (startS { bootph := 2 }) 15 i) ∧ (blkS {}).staged 0 ∧ ringFree (blkS {}) 15 (islOfBlk 0) ∧
    (let s := { blkS {} with aon := { bootph := 2 } }
     s.locked = true ∧ s.staged 0 ∧ ringFree s 15 (islOfBlk 0)) := by
  unfold ringFree State.staged
  repeat' apply And.intro
  all_goals decide +kernel

/-! ## The words of the instruction formats (Table 04-3) -/

/-- ADD g1, g2, g3; ADD.I g1, g2, −1; LD.D g1, 8(g2); BR.EQ with offset −1; JLINK with offset −2; VLD v1; MMA of V8 and G8 with ACC64; MMROWW 3;
the reserved majors and the first reserved code of the matrix settings. The words are written out from Tables 04-3, 04-14, 05-1, 05-3, 09-2, 09-3. -/
theorem test_decodeWord :
    decodeWord 7 0b000000_000001_000010_000011_00000000#32 = some (.add 7 false 1 2 3) ∧
    decodeWord 7 0b000001_000001_000010_11111111111111#32 = some (.addI 7 1 2 0x3FFF) ∧
    decodeWord 7 0b001011_000001_000010_10_000000001000#32 = some (.ldD 7 1 2 8) ∧
    decodeWord 7 0b010010_000001_000010_00_111111111111#32 = some (.brEq 7 1 2 0xFFF) ∧
    decodeWord 7 0b010100_11111111111111111111111110#32 = some (.jlink 7 0x3FFFFFE) ∧
    decodeWord 7 0b011100_001_000_000010_11111111111111#32 = some (.vld 7 1 2 0x3FFF) ∧
    decodeWord 7 0b101101_000001_000010_000011_100_101_1_0#32 = some (.mma 7 1 2 3 4 5 true false) ∧
    decodeWord 7 0b101100_000000_000010_000000_00100011#32 = some (.mmroww 7 0 2 0 3) ∧
    decodeWord 7 0b101100_000000_000010_000000_00101011#32 = none ∧
    (∀ m ∈ [0x0D, 0x22, 0x27, 0x2B, 0x36, 0x37, 0x3C, 0x3F], decodeWord 7 (BitVec.ofNat 32 (m * 2 ^ 26)) = none) := by
  repeat' apply And.intro
  all_goals decide +kernel

/-- A command in front of a waiting one. -/
theorem witness_StepRunsFrontCommand :
    (match step { core run with pending := [.kick, .timerefEdge] } with
      | .next t => some t.pending
      | _ => none) = some [.timerefEdge] := by decide +kernel

end Sys2Proof.Tests
end

/-! # Package time, the log store, counters, register writes and the lock (02_steps.md, 17, 21) -/

namespace Sys2Proof.Machine

/-! ## Shared operations: the fields that each writes -/

/-- Updates of islands alone, one after the other, write no other field. -/
theorem State.foldl_modIsl_writes (f : State → Nat → Island → Island) (l : List Nat) (s : State) :
    ∃ m, l.foldl (fun s i => s.modIsl i (f s i)) s = { s with isls := m } := by
  induction l generalizing s with
  | nil => exact ⟨_, rfl⟩
  | cons i l ih =>
    obtain ⟨m, h⟩ := ih (s.modIsl i (f s i))
    exact ⟨m, h⟩

/-- An event of the log changes no island and no memory, and its source has an open slot. -/
theorem State.logEvent_keeps (s : State) (kind id e p : Nat) (d : List Nat) :
    sameMemory s (s.logEvent kind id e p d) ∧ (s.logEvent kind id e p d).isls = s.isls := by
  obtain ⟨l, h⟩ := s.logEvent_writes kind id e p d
  rw [h]
  exact ⟨⟨rfl, rfl, rfl, rfl⟩, rfl⟩

theorem State.satLog_writes {w : Nat} (s : State) (kind id n : Nat) (x y : BitVec w) :
    ∃ q, s.satLog kind id n x y = { s with satDue := q } := by
  unfold State.satLog
  split <;> exact ⟨_, rfl⟩

theorem State.lockViolate_writes (s : State) (kind id part reg val src : Nat) :
    ∃ l q, s.lockViolate kind id part reg val src =
      { s with logSlots := l, satDue := q, aon := { s.aon with lockviol := satInc s.aon.lockviol } } := by
  unfold State.lockViolate
  dsimp only
  obtain ⟨q, hq⟩ := s.satLog_writes 0 0 2 s.aon.lockviol (satInc s.aon.lockviol)
  rw [hq]
  obtain ⟨l, hl⟩ := State.logEvent_writes (State.modAon { s with satDue := q } (fun a =>
    { a with lockviol := satInc s.aon.lockviol })) kind id 0x40 part [reg, val, src]
  exact ⟨l, q, hl⟩

/-- Copies of records to a management port write the ports alone. -/
theorem State.foldl_sendMsg_writes (p : Nat) (due : List LogRec) (s : State) :
    ∃ m, due.foldl (fun s r => s.sendMsg p 3 (Config.copyMsg 0 r.seq.toNat r.bytes)) s = { s with ports := m } := by
  induction due generalizing s with
  | nil => exact ⟨_, rfl⟩
  | cons r due ih =>
    obtain ⟨m, h⟩ := ih (s.sendMsg p 3 (Config.copyMsg 0 r.seq.toNat r.bytes))
    exact ⟨m, h⟩

/-! ## Package time (R49 to R52) -/

/-- What a tick does to the counts of time, and what it leaves. -/
def Ticked (s t : State) : Prop :=
  t.ticks = s.ticks + 1 ∧ (s.aon.holdTo = none → t.pktime = s.pktime + 1 ∧ t.pkPrev = s.pktime) ∧
    (∀ v, s.aon.holdTo = some v → t.pktime = s.pktime) ∧ sameMemory s t ∧ sameRegisters s t

theorem State.advance_writes (s : State) :
    ∃ v h, s.advance = { s with pkPrev := s.pktime, pktime := v, aon := { s.aon with holdTo := h } } ∧
      (s.aon.holdTo = none → v = s.pktime + 1) ∧ (s.aon.holdTo ≠ none → v = s.pktime) := by
  unfold State.advance
  split
  next h => exact ⟨s.pktime + 1, none, by rw [← h], fun _ => rfl, fun h' => absurd h h'⟩
  next v h =>
    split
    · exact ⟨s.pktime, none, rfl, fun h' => by simp [h] at h', fun _ => rfl⟩
    · exact ⟨s.pktime, some (v + 1), rfl, fun h' => by simp [h] at h', fun _ => rfl⟩

/-- A tick writes, beside the local count, the count of ticks, the engines' watchdogs, the islands' waits and the two counts
of the management core. -/
theorem State.elapse_writes (s : State) :
    ∃ b i r x, s.elapse = { s.advance with
      ticks := s.ticks + 1, blks := b, isls := i, aon := { s.advance.aon with remain := r, acts := x } } := by
  have hticks : s.advance.ticks = s.ticks := by
    obtain ⟨v, h, e, -⟩ := s.advance_writes
    rw [e]
  unfold State.elapse
  obtain ⟨m, h⟩ := State.foldl_modIsl_writes (fun s i k =>
    if k.waitedAll && s.allWaiting i then { k with waitacc := k.waitacc + 1, waitRun := k.waitRun + 1, caughtUp := false }
    else { k with waitRun := 0, waitedAll := s.allWaiting i, caughtUp := false }) (List.range 10) _
  rw [← hticks]
  exact ⟨_, m, _, _, h⟩

theorem State.elapse_ticked (s : State) : Ticked s s.elapse := by
  obtain ⟨b, i, r, x, he⟩ := s.elapse_writes
  obtain ⟨v, h, ha, hrun, hheld⟩ := s.advance_writes
  rw [he, ha]
  exact ⟨rfl, fun hn => ⟨hrun hn, rfl⟩, fun w hw => hheld (by simp [hw]), ⟨rfl, rfl, rfl, rfl⟩, fun c => ⟨rfl, rfl, rfl⟩⟩

theorem State.elapse_edges (s : State) : s.elapse.aon.counting = s.aon.counting ∧ s.elapse.aon.edges = s.aon.edges := by
  obtain ⟨b, i, r, x, he⟩ := s.elapse_writes
  obtain ⟨v, h, ha, -⟩ := s.advance_writes
  rw [he, ha]
  exact ⟨rfl, rfl⟩

theorem runs_timerefEdge {s : State} (h : s.aon.pwrgood = true) :
    runs .timerefEdge s (fun t => Ticked s t ∧ t.aon.counting = true ∧ t.aon.edges = true) := by
  have hx : exec .timerefEdge s = .next (s.modAon (fun a => { a with edges := true, counting := true })).elapse := by
    show execTimerefEdge s = _
    rw [execTimerefEdge, if_pos h]
  obtain ⟨hc, he⟩ := (s.modAon (fun a => { a with edges := true, counting := true })).elapse_edges
  exact ⟨_, hx, State.elapse_ticked _, hc, he⟩

theorem exec_without_pwrgood {s : State} (h : s.aon.pwrgood = false) :
    exec .timerefEdge s = .next s ∧ exec .ringOscillatorTick s = .next s ∧ exec .timerefLoss s = .next s ∧
      ∀ v, exec (.timeMessage v) s = .next s := by
  refine ⟨?_, ?_, ?_, fun v => ?_⟩
  · show execTimerefEdge s = _
    simp [execTimerefEdge, h]
  · show execRingOscillatorTick s = _
    simp [execRingOscillatorTick, h]
  · show execTimerefLoss s = _
    simp [execTimerefLoss, h]
  · show execTimeMessage v s = _
    simp [execTimeMessage, h]

theorem exec_ringOscillatorTick_counting {s : State} (h : s.aon.counting = true) :
    exec .ringOscillatorTick s = .next s := by
  show execRingOscillatorTick s = _
  simp [execRingOscillatorTick, h]

theorem runs_ringOscillatorTick {s : State} (hp : s.aon.pwrgood = true) (hc : s.aon.counting = false) :
    runs .ringOscillatorTick s (Ticked s) := by
  have hx : exec .ringOscillatorTick s = .next s.elapse := by
    show execRingOscillatorTick s = _
    simp [execRingOscillatorTick, hp, hc]
  exact ⟨_, hx, s.elapse_ticked⟩

theorem exec_timerefLoss_uncounted {s : State} (h : s.aon.counting = false) : exec .timerefLoss s = .next s := by
  show execTimerefLoss s = _
  simp [execTimerefLoss, h]

theorem runs_timerefLoss {s : State} (hp : s.aon.pwrgood = true) (hc : s.aon.counting = true) :
    runs .timerefLoss s (fun t => t.approx = true ∧ t.aon.counting = false ∧ t.aon.tbLost = true ∧
      t.aon.lostcnt = satInc s.aon.lostcnt ∧ t.pktime = s.pktime ∧ sameMemory s t) := by
  obtain ⟨l, hl⟩ := State.logEvent_writes ({ s with approx := true }.modAon (fun a =>
    { a with counting := false, tbLost := true, lostcnt := satInc a.lostcnt })) 0 0 0x33 0xFF [(satInc s.aon.lostcnt).toNat]
  refine ⟨{ { s with approx := true }.modAon (fun a =>
    { a with counting := false, tbLost := true, lostcnt := satInc a.lostcnt }) with logSlots := l }, ?_,
    rfl, rfl, rfl, rfl, rfl, rfl, rfl, rfl, rfl⟩
  show execTimerefLoss s = _
  rw [execTimerefLoss, if_neg (by simp [hp, hc]), ← hl]
  rfl

/-- Where every island of a list takes `caughtUp = false`, each of them has it after, and so has one that had it before. -/
theorem State.foldl_uncaught {i : Nat} {l : List Nat} {s : State} (h : i ∈ l ∨ (s.isl i).caughtUp = false) :
    ((l.foldl (fun s i => s.modIsl i (fun k => { k with caughtUp := false })) s).isl i).caughtUp = false := by
  induction l generalizing s with
  | nil => exact h.resolve_left (List.not_mem_nil)
  | cons j l ih =>
    apply ih
    rw [State.modIsl_isl]
    rcases h with hmem | hcaught
    · rcases List.mem_cons.1 hmem with hij | hmem
      · rw [if_pos hij]
        exact .inr rfl
      · exact .inl hmem
    · right
      split
      · rfl
      · exact hcaught

/-- Setting package time drops the hold of a realignment and every island's shadow, and writes no other field. -/
theorem State.setTime_writes (s : State) (v : BitVec 64) :
    ∃ p m, s.setTime v = { s with pktime := v, pkPrev := p, isls := m, aon := { s.aon with holdTo := none } } ∧
      ∀ i < 10, ((s.setTime v).isl i).caughtUp = false := by
  unfold State.setTime
  obtain ⟨m, h⟩ := State.foldl_modIsl_writes (fun _ _ k => { k with caughtUp := false }) (List.range 10)
    ({ s with pktime := v, pkPrev := if v = 0 then 0 else v - 1 }.modAon (fun a => { a with holdTo := none }))
  refine ⟨if v = 0 then 0 else v - 1, m, ?_, fun i hi => State.foldl_uncaught (.inl (List.mem_range.2 hi))⟩
  exact h

theorem exec_timeMessage {s : State} (v : BitVec 64) (h : s.aon.pwrgood = true) :
    exec (.timeMessage v) s = .next (
      if !s.aon.tbValid then ({ s with approx := s.approx && !s.aon.counting }.modAon (fun a => { a with tbValid := true })).setTime v
      else if v < s.pktime then { s with approx := s.approx && !s.aon.counting }.modAon (fun a => { a with holdTo := some v })
      else { s with approx := s.approx && !s.aon.counting }.setTime v) := by
  have happrox : (if s.aon.counting then { s with approx := false } else s) = { s with approx := s.approx && !s.aon.counting } := by
    cases s.aon.counting <;> simp
  show execTimeMessage v s = _
  simp only [execTimeMessage, h, Bool.not_true, Bool.false_eq_true, if_false, happrox]

/-- What a time message leaves: the first value and a later one are taken, an earlier one holds the count. -/
def TimeTaken (s : State) (v : BitVec 64) (t : State) : Prop :=
  t.approx = (s.approx && !s.aon.counting) ∧ sameMemory s t ∧ sameRegisters s t ∧
    (s.aon.tbValid = false ∨ s.pktime ≤ v → t.pktime = v ∧ t.aon.tbValid = true ∧ t.aon.holdTo = none ∧
      ∀ i < 10, (t.isl i).caughtUp = false) ∧
    (s.aon.tbValid = true → v < s.pktime → t.pktime = s.pktime ∧ t.aon.holdTo = some v)

theorem State.setTime_timeTaken {s u : State} {v : BitVec 64} (happrox : u.approx = (s.approx && !s.aon.counting))
    (hmem : sameMemory s u) (hreg : sameRegisters s u) (hvalid : u.aon.tbValid = true)
    (hnew : s.aon.tbValid = true → ¬ v < s.pktime) : TimeTaken s v (u.setTime v) := by
  obtain ⟨p, m, e, hi⟩ := u.setTime_writes v
  refine ⟨?_, ?_, ?_, fun _ => ⟨?_, ?_, ?_, hi⟩, fun h1 h2 => absurd h2 (hnew h1)⟩
  · rw [e]; exact happrox
  · rw [e]; exact hmem
  · rw [e]; exact hreg
  · rw [e]
  · rw [e]; exact hvalid
  · rw [e]

theorem runs_timeMessage {s : State} (v : BitVec 64) (h : s.aon.pwrgood = true) :
    runs (.timeMessage v) s (TimeTaken s v) := by
  refine ⟨_, exec_timeMessage v h, ?_⟩
  split
  next hfirst =>
    exact State.setTime_timeTaken rfl ⟨rfl, rfl, rfl, rfl⟩ (fun c => ⟨rfl, rfl, rfl⟩) rfl (fun hv => by simp [hv] at hfirst)
  next hlater =>
    have hvalid : s.aon.tbValid = true := by simpa using hlater
    split
    next hlt =>
      refine ⟨rfl, ⟨rfl, rfl, rfl, rfl⟩, fun c => ⟨rfl, rfl, rfl⟩, fun hnew => ?_, fun _ _ => ⟨rfl, rfl⟩⟩
      rcases hnew with hfirst | hle
      · simp [hvalid] at hfirst
      · exact absurd hlt (BitVec.not_lt.2 hle)
    next hge => exact State.setTime_timeTaken rfl ⟨rfl, rfl, rfl, rfl⟩ (fun c => ⟨rfl, rfl, rfl⟩) hvalid (fun _ => hge)

/-! ## Reads that latch (R51, R498) -/

theorem exec_pktimeLoRead (s : State) : exec .pktimeLoRead s =
    .next (s.modAon (fun a => { a with pkHi := BitVec.ofNat 32 (s.pktime.toNat / 2 ^ 32) })) := rfl

theorem exec_energyLoRead (s : State) : exec .energyLoRead s =
    .next (s.modAon (fun a => { a with energyHi := BitVec.ofNat 32 (a.energy.toNat / 2 ^ 32) })) := rfl

/-! ## Counters (R497 to R500) -/

theorem runs_stepcntLoRead {s : State} {i ev : Nat} (hi : i < 10) (he : ev < 8) :
    runs (.stepcntLoRead i ev) s (fun t =>
      lget 0 (t.isl i).cntHi ev = BitVec.ofNat 32 (((s.isl i).counter ev).toNat / 2 ^ 32) ∧
        (t.isl i).counter ev = (s.isl i).counter ev) := by
  have hx : exec (.stepcntLoRead i ev) s = .next (s.modIsl i (fun k =>
      { k with cntHi := lset k.cntHi ev (BitVec.ofNat 32 ((k.counter ev).toNat / 2 ^ 32)) })) := by
    show execStepcntLoRead i ev s = _
    rw [execStepcntLoRead, onIsl, if_pos hi, if_pos he]
  refine ⟨_, hx, ?_, ?_⟩
  · simp
  · simp [Island.counter]

theorem exec_cntWrap {s : State} {i ev : Nat} (hi : i < 10) (he : ev < 8) :
    exec (.cntWrap i ev) s =
      .next (if ((s.isl i).counter ev).toNat % 2 ^ 48 = 2 ^ 48 - 1 then s.bump i ev else s) := by
  show execCntWrap i ev s = _
  simp [execCntWrap, onIsl, hi, he]

/-- A counter that holds at all ones, with its saturation logged, stays. -/
theorem State.bump_held {s : State} {i ev : Nat} (h : (s.isl i).counter ev = BitVec.allOnes 64) (hs : ev ∈ (s.isl i).cntSat) :
    s.bump i ev = s := by
  simp only [State.bump, h, hs, if_true]

theorem State.bump_saturates {s : State} {i ev : Nat} (h : (s.isl i).counter ev = BitVec.allOnes 64)
    (hs : ev ∉ (s.isl i).cntSat) :
    s.bump i ev = (s.setIsl i { s.isl i with cntSat := ev :: (s.isl i).cntSat }).logEvent 1 i 0x53 (s.isl i).part [ev] := by
  simp only [State.bump, h, hs, if_true, if_false]

theorem State.bump_wraps {s : State} {i ev : Nat} (h : (s.isl i).counter ev ≠ BitVec.allOnes 64)
    (hw : ((s.isl i).counter ev).toNat % 2 ^ 48 = 2 ^ 48 - 1) :
    s.bump i ev = (s.setIsl i { s.isl i with cnt := lset (s.isl i).cnt ev ((s.isl i).counter ev + 1) }).logEvent 1 i 0x52
      (s.isl i).part [ev, ((s.isl i).counter ev).toNat / 2 ^ 48 + 1] := by
  simp only [State.bump, h, hw, if_true, if_false]

/-- An island's update with its log event. -/
theorem State.setIsl_logEvent (s : State) (i : Nat) (k : Island) (e p : Nat) (d : List Nat) :
    sameMemory s ((s.setIsl i k).logEvent 1 i e p d) ∧ ((s.setIsl i k).logEvent 1 i e p d).isl i = k ∧
      ((s.setIsl i k).logEvent 1 i e p d).logSlots.any (fun l => l.kind == 1 && l.id == i) = true := by
  obtain ⟨hm, hi⟩ := (s.setIsl i k).logEvent_keeps 1 i e p d
  refine ⟨hm, ?_, State.logEvent_opens ..⟩
  rw [State.isl, hi, ← State.isl, State.setIsl_isl_same]

/-- A counter of 48 ones has stepped: it carries into its extension, or holds at all ones; either is logged, the hold once. -/
def CounterCarried (s : State) (i ev : Nat) (t : State) : Prop :=
  sameMemory s t ∧
    (t.isl i).counter ev =
      (if (s.isl i).counter ev = BitVec.allOnes 64 then (s.isl i).counter ev else (s.isl i).counter ev + 1) ∧
    ((s.isl i).counter ev = BitVec.allOnes 64 ∧ ev ∈ (s.isl i).cntSat ∨
      t.logSlots.any (fun l => l.kind == 1 && l.id == i) = true)

theorem State.bump_carries {s : State} {i ev : Nat} (h : ((s.isl i).counter ev).toNat % 2 ^ 48 = 2 ^ 48 - 1) :
    CounterCarried s i ev (s.bump i ev) := by
  unfold CounterCarried
  by_cases hones : (s.isl i).counter ev = BitVec.allOnes 64
  · rw [if_pos hones]
    by_cases hsat : ev ∈ (s.isl i).cntSat
    · rw [State.bump_held hones hsat]
      exact ⟨⟨rfl, rfl, rfl, rfl⟩, rfl, .inl ⟨hones, hsat⟩⟩
    · rw [State.bump_saturates hones hsat]
      obtain ⟨hm, hi, hl⟩ := s.setIsl_logEvent i { s.isl i with cntSat := ev :: (s.isl i).cntSat } 0x53 (s.isl i).part [ev]
      exact ⟨hm, by rw [hi]; rfl, .inr hl⟩
  · rw [if_neg hones, State.bump_wraps hones h]
    obtain ⟨hm, hi, hl⟩ := s.setIsl_logEvent i { s.isl i with cnt := lset (s.isl i).cnt ev ((s.isl i).counter ev + 1) } 0x52
      (s.isl i).part [ev, ((s.isl i).counter ev).toNat / 2 ^ 48 + 1]
    exact ⟨hm, by rw [hi]; exact lget_lset_same .., .inr hl⟩

theorem exec_cntWrap_below {s : State} {i ev : Nat} (hi : i < 10) (he : ev < 8)
    (h : ((s.isl i).counter ev).toNat % 2 ^ 48 ≠ 2 ^ 48 - 1) : exec (.cntWrap i ev) s = .next s := by
  rw [exec_cntWrap hi he, if_neg h]

theorem runs_cntWrap {s : State} {i ev : Nat} (hi : i < 10) (he : ev < 8)
    (h : ((s.isl i).counter ev).toNat % 2 ^ 48 = 2 ^ 48 - 1) :
    runs (.cntWrap i ev) s (CounterCarried s i ev) :=
  ⟨s.bump i ev, by rw [exec_cntWrap hi he, if_pos h], State.bump_carries h⟩

theorem exec_cntSat_none {s : State} (h : s.satDue = []) : exec .cntSat s = .next s := by
  show execCntSat s = _
  rw [execCntSat, h]

theorem runs_cntSat {s : State} {k id n : Nat} {rest : List (Nat × Nat × Nat)} (h : s.satDue = (k, id, n) :: rest) :
    runs .cntSat s (fun t => t.satDue = rest ∧ sameMemory s t ∧
      t.logSlots.any (fun l => l.kind == k && l.id == id) = true) := by
  have hx : exec .cntSat s = .next ({ s with satDue := rest }.logEvent k id 0x53
      (if k = 2 then s.partOfBlk id else if k = 1 then (s.isl id).part else 0xFF) [n]) := by
    show execCntSat s = _
    rw [execCntSat, h]
  refine ⟨_, hx, ?_, ?_, State.logEvent_opens ..⟩
  · obtain ⟨l, e⟩ := State.logEvent_writes { s with satDue := rest } k id 0x53
      (if k = 2 then s.partOfBlk id else if k = 1 then (s.isl id).part else 0xFF) [n]
    rw [e]
  · exact (State.logEvent_keeps ..).1

/-! ## The log store (R492, R493, R495) -/

/-- Sending the records writes the ports and the records' marks; without a management port in service it does nothing. -/
theorem State.sendLogs_writes (s : State) :
    ∃ m l, s.sendLogs = { s with ports := m, aon := { s.aon with log := l } } ∧ (s.mgmtPort = none → l = s.aon.log) ∧
      (l = s.aon.log ∨ l = s.aon.log.map (fun r => { r with sent := true })) := by
  unfold State.sendLogs
  split
  next => exact ⟨_, _, rfl, fun _ => rfl, .inl rfl⟩
  next p hp =>
    obtain ⟨m, h⟩ := State.foldl_sendMsg_writes p (s.aon.log.filter (fun r => !r.sent)) s
    refine ⟨m, s.aon.log.map (fun r => { r with sent := true }), ?_, fun hn => by simp [hn] at hp, .inr rfl⟩
    show State.modAon (List.foldl _ s _) _ = _
    rw [h]
    rfl

theorem exec_logRecordWrite_none {s : State} (h : s.logSlots = []) : exec .logRecordWrite s = .next s := by
  show execLogRecordWrite s = _
  rw [execLogRecordWrite, h, nextSlot]

/-- A slot `x` is weighed against the one chosen so far, among those opened in tick `time`. -/
def LogSlot.chosen (time : BitVec 64) (m x : LogSlot) : LogSlot :=
  if x.time = time && (x.kind < m.kind || (x.kind = m.kind && x.id < m.id)) then x else m

theorem nextSlot_cons (l : LogSlot) (ls : List LogSlot) : nextSlot (l :: ls) = some (ls.foldl (LogSlot.chosen l.time) l) := rfl

/-- The slot chosen is one of the two, of the tick, and its SRCKIND is above neither's. -/
theorem LogSlot.chosen_lowest {time : BitVec 64} {m : LogSlot} (hm : m.time = time) (x : LogSlot) :
    (m.chosen time x = m ∨ m.chosen time x = x) ∧ (m.chosen time x).time = time ∧ (m.chosen time x).kind ≤ m.kind ∧
      (x.time = time → (m.chosen time x).kind ≤ x.kind) := by
  by_cases h : x.time = time ∧ (x.kind < m.kind ∨ x.kind = m.kind ∧ x.id < m.id)
  · have hx : m.chosen time x = x := if_pos (by simpa only [Bool.and_eq_true, Bool.or_eq_true, decide_eq_true_eq] using h)
    rw [hx]
    exact ⟨.inr rfl, h.1, by omega, fun _ => Nat.le_refl _⟩
  · have hx : m.chosen time x = m := if_neg (by simpa only [Bool.and_eq_true, Bool.or_eq_true, decide_eq_true_eq] using h)
    rw [hx]
    exact ⟨.inl rfl, hm, Nat.le_refl _, fun ht => Nat.le_of_not_lt fun hlt => h ⟨ht, .inl hlt⟩⟩

theorem LogSlot.foldl_chosen_lowest {time : BitVec 64} {m : LogSlot} (hm : m.time = time) (ls : List LogSlot) :
    ls.foldl (LogSlot.chosen time) m ∈ m :: ls ∧ (ls.foldl (LogSlot.chosen time) m).time = time ∧
      ∀ x ∈ m :: ls, x.time = time → (ls.foldl (LogSlot.chosen time) m).kind ≤ x.kind := by
  induction ls generalizing m with
  | nil => exact ⟨List.mem_singleton.2 rfl, hm, fun x hx _ => by rw [List.mem_singleton.1 hx]; exact Nat.le_refl _⟩
  | cons y ls ih =>
    obtain ⟨hone, htime, hlem, hley⟩ := LogSlot.chosen_lowest hm y
    obtain ⟨hmem, ht, hlow⟩ := ih htime
    have hbest := hlow _ List.mem_cons_self htime
    rw [List.foldl_cons]
    refine ⟨?_, ht, fun x hx hxt => ?_⟩
    · rcases List.mem_cons.1 hmem with hfirst | hrest
      · rw [hfirst]
        rcases hone with h | h <;> simp [h]
      · exact List.mem_cons_of_mem m (List.mem_cons_of_mem y hrest)
    · rcases List.mem_cons.1 hx with rfl | hx
      · exact Nat.le_trans hbest hlem
      · rcases List.mem_cons.1 hx with rfl | hx
        · exact Nat.le_trans hbest (hley hxt)
        · exact hlow x (List.mem_cons_of_mem _ hx) hxt

/-- The slot that is written next is one of the slots, and has the lowest SRCKIND of those opened in its tick. -/
theorem nextSlot_lowest {l : List LogSlot} (h : l ≠ []) :
    ∃ m ∈ l, nextSlot l = some m ∧ ∀ x ∈ l, x.time = m.time → m.kind ≤ x.kind := by
  obtain ⟨l₀, ls, rfl⟩ := List.exists_cons_of_ne_nil h
  obtain ⟨hmem, htime, hlow⟩ := LogSlot.foldl_chosen_lowest (rfl : l₀.time = l₀.time) ls
  exact ⟨_, hmem, nextSlot_cons l₀ ls, fun x hx hxt => hlow x hx (hxt.trans htime)⟩

/-- The count of lost records after one more record (R493): a full ring loses its oldest, which counts unless it is copied. -/
def Aon.lostNext (a : Aon) : BitVec 32 :=
  if decide (4096 ≤ a.log.length) && !(a.log.head?.map (·.copied)).getD true then satInc a.loglost else a.loglost

/-- Slot `l` is written as a record, before the records are sent; `q` are the saturations that are due. -/
def State.withRecord (s : State) (l : LogSlot) (q : List (Nat × Nat × Nat)) : State :=
  { s with logSlots := s.logSlots.erase l, satDue := q, aon := { s.aon with
      log := (if decide (4096 ≤ s.aon.log.length) then s.aon.log.drop 1 else s.aon.log) ++ [l.record s.aon.logseq],
      logseq := s.aon.logseq + 1, loglost := s.aon.lostNext } }

theorem exec_logRecordWrite {s : State} {l : LogSlot} (h : nextSlot s.logSlots = some l) :
    ∃ q, exec .logRecordWrite s = .next (s.withRecord l q).sendLogs := by
  obtain ⟨q, hq⟩ := State.satLog_writes { s with logSlots := s.logSlots.erase l } 0 0 0 s.aon.loglost s.aon.lostNext
  have hx : execLogRecordWrite s =
      .next ((State.satLog { s with logSlots := s.logSlots.erase l } 0 0 0 s.aon.loglost s.aon.lostNext).modAon (fun x => { x with
        log := (if decide (4096 ≤ s.aon.log.length) then x.log.drop 1 else x.log) ++ [l.record x.logseq],
        logseq := x.logseq + 1, loglost := s.aon.lostNext })).sendLogs := by
    rw [execLogRecordWrite, h]
    rfl
  rw [hq] at hx
  exact ⟨q, hx⟩

theorem Aon.lostNext_of_room {a : Aon} (h : a.log.length < 4096) : a.lostNext = a.loglost := by
  simp [Aon.lostNext, Nat.not_le.2 h]

theorem Aon.lostNext_of_full {a : Aon} {r : LogRec} {rest : List LogRec} (h : a.log = r :: rest) (hr : r.copied = false)
    (hfull : 4096 ≤ a.log.length) : a.lostNext = satInc a.loglost := by
  have hhead : (a.log.head?.map (·.copied)).getD true = false := by simp [h, hr]
  simp [Aon.lostNext, hfull, hhead]

theorem runs_logRecordWrite {s : State} (h : s.logSlots ≠ []) :
    runs .logRecordWrite s (fun t => t.aon.logseq = s.aon.logseq + 1 ∧ sameMemory s t ∧
      ∃ l ∈ s.logSlots, t.logSlots = s.logSlots.erase l ∧ (∀ x ∈ s.logSlots, x.time = l.time → l.kind ≤ x.kind) ∧
        (s.mgmtPort = none →
          t.aon.log = (if 4096 ≤ s.aon.log.length then s.aon.log.drop 1 else s.aon.log) ++ [l.record s.aon.logseq]) ∧
        (s.aon.log.length < 4096 → t.aon.loglost = s.aon.loglost) ∧
        (∀ r rest, s.aon.log = r :: rest → r.copied = false → 4096 ≤ s.aon.log.length →
          t.aon.loglost = satInc s.aon.loglost)) := by
  obtain ⟨l, hl, hnext, hlow⟩ := nextSlot_lowest h
  obtain ⟨q, hx⟩ := exec_logRecordWrite hnext
  obtain ⟨m, r, hs, hunsent, -⟩ := (s.withRecord l q).sendLogs_writes
  rw [hs] at hx
  refine ⟨_, hx, rfl, ⟨rfl, rfl, rfl, rfl⟩, l, hl, rfl, hlow, fun hp => ?_, Aon.lostNext_of_room,
    fun r rest => Aon.lostNext_of_full⟩
  exact (hunsent hp).trans (by simp only [State.withRecord, decide_eq_true_eq])

theorem exec_logCopyAck (s : State) : exec .logCopyAck s = .next (s.modAon (fun a => { a with log := ackLog a.log })).sendLogs :=
  rfl

theorem exec_logCopyAck_unsent {s : State} (h : s.mgmtPort = none) :
    exec .logCopyAck s = .next (s.modAon (fun a => { a with log := ackLog a.log })) := by
  have hn : (s.modAon (fun a => { a with log := ackLog a.log })).mgmtPort = none := h
  rw [exec_logCopyAck, State.sendLogs, hn]

theorem runs_logCopyAck {s : State} {r : LogRec} {rest : List LogRec} (h : s.aon.log = r :: rest) (hs : r.sent = true)
    (hc : r.copied = false) :
    runs .logCopyAck s (fun t => sameMemory s t ∧ t.aon.log.head? = some { r with copied := true }) := by
  have hack : (s.modAon (fun a => { a with log := ackLog a.log })).aon.log = { r with copied := true } :: rest := by
    simp [State.modAon, h, ackLog, hs, hc]
  obtain ⟨m, l, e, -, hl⟩ := (s.modAon (fun a => { a with log := ackLog a.log })).sendLogs_writes
  have hx := exec_logCopyAck s
  rw [e] at hx
  refine ⟨_, hx, ⟨rfl, rfl, rfl, rfl⟩, show l.head? = _ from ?_⟩
  rw [hack] at hl
  rcases hl with rfl | rfl
  · rfl
  · simp [hs]

/-! ## What answers and register writes of programs leave alone -/

/-- What neither an answer nor a program's register write changes in a block. -/
def BlockKept (k k' : Block) : Prop :=
  k'.fence = k.fence ∧ k'.skip = k.skip ∧ k'.partrect = k.partrect ∧ k'.ctlIn = k.ctlIn ∧ k'.wvaddr = k.wvaddr

theorem BlockKept.trans {k l m : Block} (h : BlockKept k l) (h' : BlockKept l m) : BlockKept k m := by
  obtain ⟨h1, h2, h3, h4, h5⟩ := h
  obtain ⟨g1, g2, g3, g4, g5⟩ := h'
  exact ⟨g1.trans h1, g2.trans h2, g3.trans h3, g4.trans h4, g5.trans h5⟩

/-- What neither an answer nor a program's register write changes in the machine. -/
structure RegisterFrame (s t : State) : Prop where
  parts : t.parts = s.parts
  memory : sameMemory s t
  registers : sameRegisters s t
  block : ∀ n, BlockKept (s.blk n) (t.blk n)

/-- An update that leaves partitions, memories, cobbles and blocks. -/
theorem RegisterFrame.of_eq {s t : State} (hp : t.parts = s.parts) (hm : sameMemory s t) (hc : t.cobs = s.cobs)
    (hb : t.blks = s.blks) : RegisterFrame s t :=
  ⟨hp, hm, fun c => by simp [State.cob, hc], fun n => by rw [State.blk, State.blk, hb]; exact ⟨rfl, rfl, rfl, rfl, rfl⟩⟩

theorem RegisterFrame.refl (s : State) : RegisterFrame s s := .of_eq rfl ⟨rfl, rfl, rfl, rfl⟩ rfl rfl

theorem RegisterFrame.trans {s t u : State} (h : RegisterFrame s t) (h' : RegisterFrame t u) : RegisterFrame s u := by
  obtain ⟨m1, m2, m3, m4⟩ := h.memory
  obtain ⟨n1, n2, n3, n4⟩ := h'.memory
  refine ⟨h'.parts.trans h.parts, ⟨n1.trans m1, n2.trans m2, n3.trans m3, n4.trans m4⟩, fun c => ?_,
    fun n => (h.block n).trans (h'.block n)⟩
  obtain ⟨r1, r2, r3⟩ := h.registers c
  obtain ⟨q1, q2, q3⟩ := h'.registers c
  exact ⟨q1.trans r1, q2.trans r2, q3.trans r3⟩

theorem RegisterFrame.modAon (s : State) (f : Aon → Aon) : RegisterFrame s (s.modAon f) :=
  .of_eq rfl ⟨rfl, rfl, rfl, rfl⟩ rfl rfl
theorem RegisterFrame.modPort (s : State) (p : Nat) (f : Port → Port) : RegisterFrame s (s.modPort p f) :=
  .of_eq rfl ⟨rfl, rfl, rfl, rfl⟩ rfl rfl

theorem RegisterFrame.setBlk {s : State} {b : Nat} {k : Block} (h : BlockKept (s.blk b) k) : RegisterFrame s (s.setBlk b k) := by
  refine ⟨rfl, ⟨rfl, rfl, rfl, rfl⟩, fun c => ⟨rfl, rfl, rfl⟩, fun n => ?_⟩
  rw [State.setBlk_blk]
  split
  next hn => exact hn ▸ h
  next => exact ⟨rfl, rfl, rfl, rfl, rfl⟩

theorem RegisterFrame.of_setBlk {s t : State} {b : Nat} {k : Block} (h : RegisterFrame (s.setBlk b k) t)
    (hk : BlockKept (s.blk b) k) : RegisterFrame s t :=
  (RegisterFrame.setBlk hk).trans h

theorem RegisterFrame.modCob {s : State} {c : Nat} {f : Cobble → Cobble}
    (h : ∀ k, (f k).ints = k.ints ∧ (f k).fps = k.fps ∧ (f k).pc = k.pc) : RegisterFrame s (s.modCob c f) := by
  refine ⟨rfl, ⟨rfl, rfl, rfl, rfl⟩, fun d => ?_, fun n => ⟨rfl, rfl, rfl, rfl, rfl⟩⟩
  rw [State.modCob_cob]
  split
  next hd => exact hd ▸ h _
  next => exact ⟨rfl, rfl, rfl⟩

theorem RegisterFrame.ite {s t u : State} {p : Prop} [Decidable p] (ht : p → RegisterFrame s t) (hu : ¬p → RegisterFrame s u) :
    RegisterFrame s (if p then t else u) := by
  split
  next h => exact ht h
  next h => exact hu h

/-! ## Answers -/

theorem State.engStep_frame (s : State) (b e : Nat) : RegisterFrame s (s.engStep b e) :=
  .setBlk ⟨rfl, rfl, rfl, rfl, rfl⟩

theorem State.ni_frame (s : State) (b : Nat) (p : Packet) : RegisterFrame s (s.ni b p) :=
  .setBlk ⟨rfl, rfl, rfl, rfl, rfl⟩

theorem State.sendPort_frame (s : State) (b port level : Nat) (c : PortCmd) : RegisterFrame s (s.sendPort b port level c) :=
  s.ni_frame ..

theorem State.cacheSend_frame (s : State) (b port : Nat) (m : CMiss) (c : PortCmd) : RegisterFrame s (s.cacheSend b port m c) := by
  unfold State.cacheSend
  dsimp only
  split
  · exact .setBlk ⟨rfl, rfl, rfl, rfl, rfl⟩
  · exact .of_setBlk ((State.engStep_frame ..).trans (State.sendPort_frame ..)) ⟨rfl, rfl, rfl, rfl, rfl⟩

theorem State.cachePump_frame (s : State) (b : Nat) : RegisterFrame s (s.cachePump b) := by
  unfold State.cachePump
  dsimp only
  split
  next => exact .refl s
  next =>
    split
    next =>
      split
      · exact .refl s
      · exact .of_setBlk (State.cacheSend_frame ..) ⟨rfl, rfl, rfl, rfl, rfl⟩
    next => exact .refl s

theorem Block.unwrite_kept (k : Block) (m : CMiss) : BlockKept k (k.unwrite m) := by
  unfold Block.unwrite
  dsimp only
  split
  next => exact ⟨rfl, rfl, rfl, rfl, rfl⟩
  next =>
    split
    next => exact ⟨rfl, rfl, rfl, rfl, rfl⟩
    next => exact ⟨rfl, rfl, rfl, rfl, rfl⟩

theorem Block.foldl_unwrite_kept (l : List CMiss) (k : Block) : BlockKept k (l.foldl Block.unwrite k) := by
  induction l generalizing k with
  | nil => exact ⟨rfl, rfl, rfl, rfl, rfl⟩
  | cons m l ih => exact (k.unwrite_kept m).trans (ih _)

/-- An answer reaches its requester: a queue of answers, the cache engine, a port or the management core's status. -/
theorem State.deliver_frame (s : State) (b : Nat) (a : Ans) : RegisterFrame s (s.deliver b a) := by
  delta State.deliver
  extract_lets u
  have hu : RegisterFrame s u :=
    .ite (fun _ => s.engStep_frame b 0) fun _ => .ite (fun _ => s.engStep_frame b 2) fun _ =>
      .ite (fun _ => s.engStep_frame b 3) fun _ => .refl s
  refine hu.trans ?_
  clear_value u
  refine .ite (fun _ => .modCob fun k => ⟨rfl, rfl, rfl⟩) fun _ => ?_
  refine .ite (fun _ => .setBlk ⟨rfl, rfl, rfl, rfl, rfl⟩) fun _ => ?_
  refine .ite (fun _ => .modCob fun k => by split <;> exact ⟨rfl, rfl, rfl⟩) fun _ => ?_
  refine .ite (fun _ => .modAon ..) fun _ => ?_
  refine .ite (fun _ => .setBlk ⟨rfl, rfl, rfl, rfl, rfl⟩) fun _ => ?_
  refine .ite (fun _ => .of_setBlk (State.cachePump_frame ..) ⟨rfl, rfl, rfl, rfl, rfl⟩) fun _ => ?_
  refine .ite (fun _ => .of_setBlk (State.cachePump_frame ..) ?_) fun _ => ?_
  · dsimp only
    split
    · exact ⟨rfl, rfl, rfl, rfl, rfl⟩
    · exact BlockKept.trans ⟨rfl, rfl, rfl, rfl, rfl⟩ (Block.foldl_unwrite_kept ..)
  refine .ite (fun _ => ?_) fun _ => .setBlk ⟨rfl, rfl, rfl, rfl, rfl⟩
  split
  · exact .refl u
  · exact .of_setBlk (.modPort ..) ⟨rfl, rfl, rfl, rfl, rfl⟩

theorem State.reply_frame (s : State) (b : Nat) (a : Acc) (status : Nat) (data : List Byte) :
    RegisterFrame s (s.reply b a status data) := by
  unfold State.reply
  dsimp only
  split
  · exact State.ni_frame ..
  · exact State.deliver_frame ..

/-! ## Register writes of programs -/

theorem State.lockViolate_frame (s : State) (kind id part reg val src : Nat) :
    RegisterFrame s (s.lockViolate kind id part reg val src) := by
  obtain ⟨l, q, h⟩ := s.lockViolate_writes kind id part reg val src
  rw [h]
  exact .of_eq rfl ⟨rfl, rfl, rfl, rfl⟩ rfl rfl

/-- The two outcomes of a choice between register writes. -/
theorem RegisterFrame.snd_ite {s : State} {p : Prop} [Decidable p] {x y : Bool × State} (hx : RegisterFrame s x.2)
    (hy : RegisterFrame s y.2) : RegisterFrame s (if p then x else y).2 := by
  split
  · exact hx
  · exact hy

theorem State.winWrite_frame (s : State) (b o v : Nat) : RegisterFrame s (s.winWrite b o v).2 := by
  have hset : ∀ k, BlockKept (s.blk b) k → RegisterFrame s (s.setBlk b k) := fun k => .setBlk
  refine .snd_ite (.refl s) (.snd_ite (.snd_ite (.refl s) ?_) (.snd_ite (.refl s) (.snd_ite ?_ (.snd_ite ?_ ?_))))
  all_goals exact hset _ ⟨rfl, rfl, rfl, rfl, rfl⟩

theorem State.chanWrite_frame (s : State) (b o v : Nat) : RegisterFrame s (s.chanWrite b o v).2 :=
  .snd_ite (.refl s) (.snd_ite (.snd_ite (.refl s) (.setBlk ⟨rfl, rfl, rfl, rfl, rfl⟩))
    (.snd_ite (.snd_ite (.refl s) (.setBlk ⟨rfl, rfl, rfl, rfl, rfl⟩)) (.refl s)))

theorem State.nteRegWrite_frame (s : State) (i o v : Nat) : RegisterFrame s (s.nteRegWrite i o v).2 := by
  refine .snd_ite (.snd_ite (.refl s) (.snd_ite (.snd_ite (.refl s) ?_) (.snd_ite (.snd_ite (.refl s) ?_) (.snd_ite ?_ (.refl s)))))
    (.snd_ite (.refl s) (.snd_ite ?_ (.snd_ite ?_ (.snd_ite ?_ (.snd_ite ?_ (.refl s))))))
  all_goals exact .of_eq rfl ⟨rfl, rfl, rfl, rfl⟩ rfl rfl

theorem State.mrCtlWrite_frame (s : State) (i o v : Nat) : RegisterFrame s (s.mrCtlWrite i o v).2 :=
  .snd_ite (.refl s) (.of_eq rfl ⟨rfl, rfl, rfl, rfl⟩ rfl rfl)

/-- A program's write reaches no BLKMAP, no PARTRECT and no register of a core (R406, R470). -/
theorem State.progWrite_frame (s : State) (b o v src : Nat) : RegisterFrame s (s.progWrite b o v src).2 := by
  refine .snd_ite (State.winWrite_frame ..) (.snd_ite (State.chanWrite_frame ..) (.snd_ite (State.lockViolate_frame ..)
    (.snd_ite (.refl s) (.snd_ite (.snd_ite (.refl s) (State.nteRegWrite_frame ..)) ?_))))
  split
  case h_6 => exact .snd_ite (.refl s) (.setBlk ⟨rfl, rfl, rfl, rfl, rfl⟩)
  case h_9 => exact .refl s
  all_goals exact .setBlk ⟨rfl, rfl, rfl, rfl, rfl⟩

theorem State.popCtl_eq {s : State} {b : Nat} {p : Acc → Bool} {a : Acc} {rest : List Acc} (h : (s.blk b).ctlIn = a :: rest)
    (hp : p a = true) : s.popCtl b p = some (a, s.modBlk b (fun k => { k with ctlIn := rest })) := by
  rw [State.popCtl, h]
  exact if_pos hp

/-- A block's stage runs where no brown-out holds its island. -/
theorem onBlk_staged {s : State} {b : Nat} (h : s.staged b) (f : State → State) : onBlk b s f = .next (f s) := by
  obtain ⟨hb, hbrown⟩ := h
  rw [onBlk, if_pos hb, State.stage, if_neg (by simp [hbrown])]

/-- The oldest register write of a program, where it has no row of its own, leaves the queue. -/
theorem State.progReg_frame {s : State} {b : Nat} {x : Acc} {rest : List Acc} (h : (s.blk b).ctlIn = x :: rest)
    (hw : x.kind = .wr) (hown : ownRow s b x = false) :
    RegisterFrame (s.modBlk b (fun k => { k with ctlIn := rest })) (s.progReg b) := by
  rw [State.progReg, State.popCtl_eq h (by simp [hw, hown])]
  refine RegisterFrame.trans ?_ (State.reply_frame ..)
  exact .snd_ite (State.mrCtlWrite_frame ..) (State.progWrite_frame ..)

theorem runs_registerWrite_program {s : State} {b : Nat} {x : Acc} {rest : List Acc} (hb : s.staged b)
    (h : (s.blk b).ctlIn = x :: rest) (hw : x.kind = .wr) (hown : ownRow s b x = false) :
    runs (.registerWrite false 0 b 0 0) s (fun t => (t.blk b).ctlIn = rest ∧
      (∀ n, (t.blk n).fence = (s.blk n).fence ∧ (t.blk n).skip = (s.blk n).skip ∧ (t.blk n).partrect = (s.blk n).partrect) ∧
      t.parts = s.parts ∧ sameMemory s t ∧ sameRegisters s t) := by
  obtain ⟨hp, hm, hr, hk⟩ := State.progReg_frame h hw hown
  refine ⟨s.progReg b, onBlk_staged hb _, ?_, fun n => ?_, hp, hm, hr⟩
  · obtain ⟨-, -, -, hctl, -⟩ := hk b
    simpa using hctl
  · obtain ⟨hfence, hskip, hrect, -⟩ := hk n
    rw [hfence, hskip, hrect, State.modBlk_blk]
    split
    next hn => exact hn ▸ ⟨rfl, rfl, rfl⟩
    next => exact ⟨rfl, rfl, rfl⟩

/-! ## Reads that clear -/

theorem State.ctlRead_wvaddr (s : State) (b : Nat) : s.ctlRead b 0x1204 = some (s.blk b).wvaddr.toNat := rfl

/-- A remote requester's answer leaves at the block's network interface. -/
theorem State.reply_remote {s : State} {b : Nat} {a : Acc} (h : a.remote = true) (status : Nat) (data : List Byte) :
    ∃ pk ans, ((s.reply b a status data).blk b).niq = (s.blk b).niq ++ [pk] ∧ pk.pay = .ans ans ∧ pk.dst = a.sblk ∧
      ans.status = status ∧ ans.data = data := by
  rw [State.reply, if_pos h, State.ni, State.modBlk_blk_same]
  exact ⟨_, _, rfl, rfl, rfl, rfl, rfl⟩

/-- Block `b` with the requests `rest` waiting at its registers and WVADDR cleared. -/
def State.wvCleared (s : State) (b : Nat) (rest : List Acc) : State :=
  (s.modBlk b (fun k => { k with ctlIn := rest })).modBlk b (fun k => { k with wvaddr := 0 })

theorem State.wvCleared_blk (s : State) (b : Nat) (rest : List Acc) :
    (s.wvCleared b rest).blk b = { s.blk b with ctlIn := rest, wvaddr := 0 } := by
  rw [State.wvCleared, State.modBlk_blk_same, State.modBlk_blk_same]

/-- The oldest waiting read, of WVADDR, answers its value and clears it. -/
theorem exec_rcRegisterRead_wvaddr {s : State} {b : Nat} {x : Acc} {rest : List Acc} (hb : s.staged b)
    (h : (s.blk b).ctlIn = x :: rest) (hr : x.kind = .rd) (ho : x.off = 0x1204) :
    exec (.rcRegisterRead b) s =
      .next ((s.wvCleared b rest).reply b x 0 (toBytes x.size ((s.ctlRead b x.off).getD 0))) := by
  have hv : (s.modBlk b (fun k => { k with ctlIn := rest })).ctlRead b 0x1204 = s.ctlRead b 0x1204 := by
    rw [State.ctlRead_wvaddr, State.ctlRead_wvaddr, State.modBlk_blk_same]
  show execRcRegisterRead b s = _
  rw [execRcRegisterRead, onBlk_staged hb, State.popCtl_eq h (by simp [hr, ho, isRcOff])]
  simp only [ho, hv, if_true, State.wvCleared]

theorem runs_rcRegisterRead {s : State} {b : Nat} {x : Acc} {rest : List Acc} (hb : s.staged b)
    (h : (s.blk b).ctlIn = x :: rest) (hr : x.kind = .rd) (ho : x.off = 0x1204) :
    runs (.rcRegisterRead b) s (fun t => (t.blk b).wvaddr = 0 ∧ sameMemory s t ∧
      (x.remote = true → ∃ pk ans, (t.blk b).niq = (s.blk b).niq ++ [pk] ∧ pk.pay = .ans ans ∧ pk.dst = x.sblk ∧ ans.status = 0 ∧
        ans.data = toBytes x.size ((s.ctlRead b x.off).getD 0))) := by
  obtain ⟨-, hm, -, hk⟩ := (s.wvCleared b rest).reply_frame b x 0 (toBytes x.size ((s.ctlRead b x.off).getD 0))
  obtain ⟨-, -, -, -, hw⟩ := hk b
  refine ⟨_, exec_rcRegisterRead_wvaddr hb h hr ho, ?_, hm, fun hremote => ?_⟩
  · rw [hw, State.wvCleared_blk]
  · obtain ⟨pk, ans, hniq, hans⟩ := State.reply_remote (s := s.wvCleared b rest) (b := b) hremote 0
      (toBytes x.size ((s.ctlRead b x.off).getD 0))
    rw [State.wvCleared_blk] at hniq
    exact ⟨pk, ans, hniq, hans⟩

/-! ## The fields of a register, as bits of the value written -/

theorem b32_toNat_and (v : BitVec 32) (m : Nat) : b32 (v.toNat &&& m) = v &&& b32 m := by
  simp [b32, BitVec.ofNat_and]

theorem b32_toNat_mod (v : BitVec 32) (n : Nat) : b32 (v.toNat % 2 ^ n) = v &&& b32 (2 ^ n - 1) := by
  rw [← b32_toNat_and, Nat.and_two_pow_sub_one_eq_mod]

theorem bit_toNat {w : Nat} (v : BitVec w) (i : Nat) : bit v.toNat i = v.getLsbD i := by
  rw [bit, BitVec.getLsbD, Nat.testBit_eq_decide_div_mod_eq]
  rfl

/-! ## The lock (R13, R406) -/

/-- A locked write: it returns LOCKED and changes LOCKVIOL and the log alone. -/
def RefusedLocked (s t : State) : Prop :=
  t.aon.wstat = stLocked ∧ t.aon.lockviol = satInc s.aon.lockviol ∧ t.aon.bootph = s.aon.bootph ∧
    t.aon.srcfg = s.aon.srcfg ∧ t.parts = s.parts ∧ t.isls = s.isls ∧ t.blks = s.blks ∧ sameMemory s t ∧ t.cobs = s.cobs

theorem State.rwl_refuses {s : State} (h : s.locked = true) (kind id part reg v : Nat) (f : State → Nat × State) :
    RefusedLocked s (State.wrote (s.rwl kind id part reg v f)) := by
  obtain ⟨l, q, e⟩ := s.lockViolate_writes kind id part reg v 0xFFFF
  rw [State.rwl, if_pos h, e]
  exact ⟨rfl, rfl, rfl, rfl, rfl, rfl, rfl, ⟨rfl, rfl, rfl, rfl⟩, rfl⟩

theorem State.rwl_unlocked {s : State} (h : s.locked = false) (kind id part reg v : Nat) (f : State → Nat × State) :
    s.rwl kind id part reg v f = f s := by
  rw [State.rwl, if_neg (by simp [h])]

/-! ## Which register an offset names -/

theorem State.fwAonWrite_srcfg (s : State) (v : Nat) : s.fwAonWrite 0x140 v =
    s.rwl 0 0 0xFF 0x140 v fun s => (stOk, s.modAon (fun a => { a with srcfg := b32 (v % 2 ^ 4) })) := rfl

theorem State.fwAonWrite_partdef (s : State) {p : Nat} (hp : p < 10) (v : Nat) : s.fwAonWrite (0x100 + 4 * p) v =
    s.rwl 0 0 0xFF (0x100 + 4 * p) v fun s => (stOk, s.modPart p (fun k => { k with pdef := b32 (v &&& 0xE778FFFF) })) := by
  have ho : (0x100 + 4 * p - 0x100) / 4 = p := by omega
  rw [State.fwAonWrite, if_pos (by simp only [Bool.and_eq_true, decide_eq_true_eq]; omega), ho]

theorem State.fwIslWrite_wpolicy (s : State) (i v : Nat) : s.fwIslWrite i 0x800 v =
    s.rwl 1 i (s.isl i).part 0x800 v fun t => (stOk, t.setIsl i { s.isl i with wpolicy := b32 (v % 2 ^ 13) }) := rfl

theorem State.fwIslWrite_islown (s : State) (i v : Nat) : s.fwIslWrite i 0x840 v =
    s.rwl 1 i (s.isl i).part 0x840 v fun t => (stOk, t.setIsl i { s.isl i with own := b32 (v &&& 0x8F00FFFF) }) := rfl

theorem State.fwBlkWrite_partrect (s : State) (b v : Nat) : s.fwBlkWrite b 0x108 v =
    s.rwl 2 b (s.partOfBlk b) 0x108 v fun s => (stOk, s.modBlk b (fun k => { k with partrect := b32 (v &&& 0x9F1F0F0F) })) := rfl

/-! ## Writes of the management core, with a free service ring (R28) -/

/-- The master stop has sent the message of boot code that waited. -/
def State.ringUsed (s : State) : State := s.modAon (fun a => { a with ringq := [], ringLast := 15 })

theorem exec_registerWrite_island {s : State} {i : Nat} (hi : i < 10) (h : ringFree s 15 i) (off : Nat) (v : BitVec 32) :
    exec (.registerWrite true 1 i off v) s = .next (State.wrote (s.ringUsed.fwIslWrite i off v.toNat)) := by
  show execRegisterWrite true 1 i off v s = _
  simp only [execRegisterWrite, onIsl, hi, Bool.not_true, Bool.false_eq_true, if_false, if_true, Nat.one_ne_zero,
    State.ringSend_free h]
  rfl

theorem exec_registerWrite_block {s : State} {b : Nat} (hb : s.staged b) (h : ringFree s 15 (islOfBlk b)) (off : Nat)
    (v : BitVec 32) :
    exec (.registerWrite true 0 b off v) s = .next (State.wrote (s.ringUsed.fwBlkWrite b off v.toNat)) := by
  show execRegisterWrite true 0 b off v s = _
  simp only [execRegisterWrite, onBlk_staged hb, Bool.not_true, Bool.false_eq_true, if_false, if_true, State.ringSend_free h]
  rfl

theorem exec_blkmapWrite {s : State} {b : Nat} (hb : s.staged b) (h : ringFree s 15 (islOfBlk b)) (v : BitVec 32) :
    exec (.blkmapWrite b v) s = .next (State.wrote (s.ringUsed.blkmapWrite b v.toNat)) := by
  show execBlkmapWrite b v s = _
  rw [execBlkmapWrite, onBlk_staged hb, State.ringSend_free h]
  rfl

theorem exec_registerWrite_alwaysOn (s : State) (off : Nat) (v : BitVec 32) :
    exec (.registerWrite true 2 0 off v) s = .next (State.wrote (s.fwAonWrite off v.toNat)) := rfl

theorem exec_bootphWrite (s : State) (v : BitVec 32) :
    exec (.bootphWrite v) s = .next (State.wrote (s.rwl 0 0 0xFF 0x10 v.toNat fun s =>
      (stOk, if s.aon.bootph.toNat < v.toNat % 4 ∧ v.toNat % 4 ≤ 2 then
        s.modAon (fun a => { a with bootph := BitVec.ofNat 2 (v.toNat % 4) }) else s))) := by
  show execBootphWrite v s = _
  simp only [execBootphWrite, Bool.and_eq_true, decide_eq_true_eq]

/-! ## After the lock -/

section Locked
variable {s : State} (h : s.locked = true) (v : BitVec 32)
include h

theorem runs_bootphWrite_locked : runs (.bootphWrite v) s (RefusedLocked s) :=
  ⟨_, exec_bootphWrite s v, State.rwl_refuses h ..⟩

theorem runs_srcfgWrite_locked : runs (.registerWrite true 2 0 0x140 v) s (RefusedLocked s) :=
  ⟨_, exec_registerWrite_alwaysOn .., s.fwAonWrite_srcfg _ ▸ State.rwl_refuses h ..⟩

theorem runs_partdefWrite_locked {p : Nat} (hp : p < 10) :
    runs (.registerWrite true 2 0 (0x100 + 4 * p) v) s (RefusedLocked s) :=
  ⟨_, exec_registerWrite_alwaysOn .., s.fwAonWrite_partdef hp _ ▸ State.rwl_refuses h ..⟩

/-- The ring's use changes nothing that a locked write speaks of. -/
theorem State.ringUsed_refuses {t : State} (ht : s.ringUsed.locked = true → RefusedLocked s.ringUsed t) : RefusedLocked s t :=
  ht h

theorem runs_wpolicyWrite_locked {i : Nat} (hi : i < 10) (hr : ringFree s 15 i) :
    runs (.registerWrite true 1 i 0x800 v) s (RefusedLocked s) :=
  ⟨_, exec_registerWrite_island hi hr .., State.ringUsed_refuses h fun hu => by
    rw [State.fwIslWrite_wpolicy]
    exact State.rwl_refuses hu ..⟩

theorem runs_islownWrite_locked {i : Nat} (hi : i < 10) (hr : ringFree s 15 i) :
    runs (.registerWrite true 1 i 0x840 v) s (RefusedLocked s) :=
  ⟨_, exec_registerWrite_island hi hr .., State.ringUsed_refuses h fun hu => by
    rw [State.fwIslWrite_islown]
    exact State.rwl_refuses hu ..⟩

theorem runs_blkmapWrite_locked {b : Nat} (hb : s.staged b) (hr : ringFree s 15 (islOfBlk b)) :
    runs (.blkmapWrite b v) s (RefusedLocked s) :=
  ⟨_, exec_blkmapWrite hb hr v, State.ringUsed_refuses h fun hu => State.rwl_refuses hu ..⟩

theorem runs_partrectWrite_locked {b : Nat} (hb : s.staged b) (hr : ringFree s 15 (islOfBlk b)) :
    runs (.registerWrite true 0 b 0x108 v) s (RefusedLocked s) :=
  ⟨_, exec_registerWrite_block hb hr .., State.ringUsed_refuses h fun hu => State.rwl_refuses hu ..⟩

end Locked

/-! ## Before the lock -/

/-- The state after a write that the ring carried, with its status. -/
def State.ringWrote (st : Nat) (s : State) : State := s.modAon (fun a => { a with ringq := [], ringLast := 15, wstat := st })

section Unlocked
variable {s : State} (h : s.locked = false) (v : BitVec 32)
include h

theorem runs_bootphWrite_unlocked :
    runs (.bootphWrite v) s (fun t => sameMemory s t ∧ t.aon.wstat = stOk ∧
      t.aon.bootph = if s.aon.bootph.toNat < v.toNat % 4 ∧ v.toNat % 4 ≤ 2 then BitVec.ofNat 2 (v.toNat % 4) else s.aon.bootph) := by
  refine ⟨_, exec_bootphWrite s v, ?_⟩
  rw [State.rwl_unlocked h]
  split
  · exact ⟨⟨rfl, rfl, rfl, rfl⟩, rfl, rfl⟩
  · exact ⟨⟨rfl, rfl, rfl, rfl⟩, rfl, rfl⟩

theorem exec_srcfgWrite_unlocked :
    exec (.registerWrite true 2 0 0x140 v) s = .next (s.modAon (fun a => { a with srcfg := v &&& 0xF#32, wstat := stOk })) := by
  rw [exec_registerWrite_alwaysOn, State.fwAonWrite_srcfg, State.rwl_unlocked h, b32_toNat_mod]
  rfl

theorem exec_partdefWrite_unlocked {p : Nat} (hp : p < 10) :
    exec (.registerWrite true 2 0 (0x100 + 4 * p) v) s =
      .next ((s.modPart p (fun k => { k with pdef := v &&& 0xE778FFFF#32 })).modAon (fun a => { a with wstat := stOk })) := by
  rw [exec_registerWrite_alwaysOn, State.fwAonWrite_partdef s hp, State.rwl_unlocked h, b32_toNat_and]
  rfl

theorem State.ringUsed_unlocked : s.ringUsed.locked = false := h

theorem exec_islownWrite_unlocked {i : Nat} (hi : i < 10) (hr : ringFree s 15 i) :
    exec (.registerWrite true 1 i 0x840 v) s =
      .next ((s.modIsl i (fun k => { k with own := v &&& 0x8F00FFFF#32 })).ringWrote stOk) := by
  rw [exec_registerWrite_island hi hr, State.fwIslWrite_islown, State.rwl_unlocked (State.ringUsed_unlocked h), b32_toNat_and]
  rfl

theorem exec_wpolicyWrite_unlocked {i : Nat} (hi : i < 10) (hr : ringFree s 15 i) :
    exec (.registerWrite true 1 i 0x800 v) s =
      .next ((s.modIsl i (fun k => { k with wpolicy := v &&& 0x1FFF#32 })).ringWrote stOk) := by
  rw [exec_registerWrite_island hi hr, State.fwIslWrite_wpolicy, State.rwl_unlocked (State.ringUsed_unlocked h), b32_toNat_mod]
  rfl

theorem exec_partrectWrite_unlocked {b : Nat} (hb : s.staged b) (hr : ringFree s 15 (islOfBlk b)) :
    exec (.registerWrite true 0 b 0x108 v) s =
      .next ((s.modBlk b (fun k => { k with partrect := v &&& 0x9F1F0F0F#32 })).ringWrote stOk) := by
  rw [exec_registerWrite_block hb hr, State.fwBlkWrite_partrect, State.rwl_unlocked (State.ringUsed_unlocked h), b32_toNat_and]
  rfl

theorem exec_blkmapWrite_badSkip {b : Nat} (hb : s.staged b) (hr : ringFree s 15 (islOfBlk b)) (hv : 16 < v.toNat % 32) :
    exec (.blkmapWrite b v) s = .next (s.ringWrote stBadParam) := by
  rw [exec_blkmapWrite hb hr, State.blkmapWrite, State.rwl_unlocked (State.ringUsed_unlocked h), if_pos hv]
  rfl

theorem exec_blkmapWrite_unlocked {b : Nat} (hb : s.staged b) (hr : ringFree s 15 (islOfBlk b)) (hv : v.toNat % 32 ≤ 16) :
    exec (.blkmapWrite b v) s =
      .next ((s.modBlk b (fun k => { k with fence := v.getLsbD 8, skip := v.setWidth 5 })).ringWrote stOk) := by
  rw [exec_blkmapWrite hb hr, State.blkmapWrite, State.rwl_unlocked (State.ringUsed_unlocked h), if_neg (Nat.not_lt.2 hv), bit_toNat]
  rfl

end Unlocked

/-! ## The obligation -/

/-- Settles O60: each clause is the rule of its command above, the ticks by State.elapse, the log by State.sendLogs, a
program's write by RegisterFrame, the locked registers by State.rwl. -/
theorem timeLogsCountersAndLockedRegisters : Obligations.TimeLogsCountersAndLockedRegisters := by
  intro s
  refine ⟨exec_without_pwrgood, runs_timerefEdge, exec_ringOscillatorTick_counting, runs_ringOscillatorTick,
    exec_timerefLoss_uncounted, runs_timerefLoss, runs_timeMessage, exec_pktimeLoRead s, exec_energyLoRead s,
    fun i ev hi he => ⟨runs_stepcntLoRead hi he, exec_cntWrap_below hi he, runs_cntWrap hi he⟩,
    exec_cntSat_none, fun k id n rest => runs_cntSat, exec_logRecordWrite_none, runs_logRecordWrite,
    exec_logCopyAck_unsent, fun r rest => runs_logCopyAck,
    fun b x rest hb hx => ⟨runs_rcRegisterRead hb hx, runs_registerWrite_program hb hx⟩, fun v => ⟨fun h => ?_, fun h => ?_⟩⟩
  · exact ⟨runs_bootphWrite_locked h v, runs_srcfgWrite_locked h v, fun p => runs_partdefWrite_locked h v,
      fun i hi hr => ⟨runs_wpolicyWrite_locked h v hi hr, runs_islownWrite_locked h v hi hr⟩,
      fun b hb hr => ⟨runs_blkmapWrite_locked h v hb hr, runs_partrectWrite_locked h v hb hr⟩⟩
  · exact ⟨runs_bootphWrite_unlocked h v, exec_srcfgWrite_unlocked h v, fun p => exec_partdefWrite_unlocked h v,
      fun i hi hr => ⟨exec_islownWrite_unlocked h v hi hr, exec_wpolicyWrite_unlocked h v hi hr⟩,
      fun b hb hr => ⟨exec_partrectWrite_unlocked h v hb hr, exec_blkmapWrite_badSkip h v hb hr,
        exec_blkmapWrite_unlocked h v hb hr⟩⟩

end Sys2Proof.Machine

/-! # Vector registers, SVX, vector loads and stores, small tiles and the lane unit (05_cobble_vector_and_tiles.md) -/

namespace Sys2Proof.Machine

/-! ## Elements of a register image (R111) -/

theorem Fp.testBit_elem (v w e j : Nat) : (Fp.elem v w e).testBit j = (decide (j < w) && v.testBit (w * e + j)) := by
  rw [Fp.elem, Nat.testBit_mod_two_pow, Nat.testBit_div_two_pow, Nat.add_comm]

theorem Fp.build_lt (w : Nat) (f : Nat → Nat × Fp.Flags) (n : Nat) : (Fp.build w f n).1 < 2 ^ (w * n) := by
  induction n with
  | zero => simp [Fp.build]
  | succ n ih =>
    have hx : (f n).1 % 2 ^ w < 2 ^ w := Nat.mod_lt _ (Nat.two_pow_pos w)
    rw [Nat.mul_succ, Nat.pow_add, Fp.build]
    calc (Fp.build w f n).1 + (f n).1 % 2 ^ w * 2 ^ (w * n)
        < ((f n).1 % 2 ^ w + 1) * 2 ^ (w * n) := by rw [Nat.succ_mul]; omega
      _ ≤ 2 ^ w * 2 ^ (w * n) := Nat.mul_le_mul_right _ hx
      _ = 2 ^ (w * n) * 2 ^ w := Nat.mul_comm _ _

/-- Each element of a value built from elements is that element's code. -/
theorem Fp.elem_build {w m i : Nat} (f : Nat → Nat × Fp.Flags) (h : i < m) :
    Fp.elem (Fp.build w f m).1 w i = (f i).1 % 2 ^ w := by
  induction m with
  | zero => omega
  | succ n ih =>
    have hb : (Fp.build w f (n + 1)).1 = 2 ^ (w * n) * ((f n).1 % 2 ^ w) + (Fp.build w f n).1 := by
      rw [Fp.build, Nat.add_comm, Nat.mul_comm]
    have hlt := Fp.build_lt w f n
    rcases Nat.lt_succ_iff_lt_or_eq.1 h with hin | rfl
    · rw [← ih hin]
      have hle : w * i + w ≤ w * n := Nat.mul_succ w i ▸ Nat.mul_le_mul_left w hin
      refine Nat.eq_of_testBit_eq fun j => ?_
      by_cases hj : j < w
      · have : w * i + j < w * n := by omega
        simp [Fp.testBit_elem, hb, Nat.testBit_two_pow_mul_add _ hlt, this]
      · simp [Fp.testBit_elem, hj]
    · rw [Fp.elem, hb, Nat.mul_add_div (Nat.two_pow_pos _), Nat.div_eq_of_lt hlt, Nat.add_zero, Nat.mod_mod]

theorem Fp.testBit_splice (v lo n x b : Nat) :
    (Fp.splice v lo n x).testBit b = if lo ≤ b ∧ b < lo + n then x.testBit (b - lo) else v.testBit b := by
  have hlo : v % 2 ^ lo < 2 ^ lo := Nat.mod_lt _ (Nat.two_pow_pos lo)
  have hs : Fp.splice v lo n x = 2 ^ lo * (2 ^ n * (v / 2 ^ (lo + n)) + x % 2 ^ n) + v % 2 ^ lo := by
    have hq : v / (2 ^ lo * 2 ^ n) * (2 ^ lo * 2 ^ n) = 2 ^ lo * (2 ^ n * (v / (2 ^ lo * 2 ^ n))) := by
      rw [Nat.mul_comm, Nat.mul_assoc]
    rw [Fp.splice, Nat.pow_add, hq, Nat.mul_add, Nat.mul_comm (x % 2 ^ n)]
    omega
  rw [hs, Nat.testBit_two_pow_mul_add _ hlo, Nat.testBit_two_pow_mul_add _ (Nat.mod_lt _ (Nat.two_pow_pos n))]
  simp only [Nat.testBit_mod_two_pow, Nat.testBit_div_two_pow]
  by_cases h1 : b < lo
  · simp [h1, Nat.not_le.2 h1]
  · by_cases h2 : b < lo + n
    · have : b - lo < n := by omega
      simp [h1, this, h2, Nat.not_lt.1 h1]
    · have : ¬ b - lo < n := by omega
      have hb : b - lo - n + (lo + n) = b := by omega
      simp [h1, this, h2, hb]

/-- Replacing an element changes that element alone. -/
theorem Fp.elem_splice (v w i j x : Nat) :
    Fp.elem (Fp.splice v (w * i) w x) w j = if j = i then x % 2 ^ w else Fp.elem v w j := by
  refine Nat.eq_of_testBit_eq fun b => ?_
  rw [Fp.testBit_elem, Fp.testBit_splice]
  by_cases hb : b < w
  · by_cases hji : j = i
    · subst hji
      simp [hb]
    · have hout : ¬ (w * i ≤ w * j + b ∧ w * j + b < w * i + w) := by
        rcases Nat.lt_or_gt_of_ne hji with h | h
        · have := Nat.mul_succ w j ▸ Nat.mul_le_mul_left w (Nat.succ_le_of_lt h)
          omega
        · have := Nat.mul_succ w i ▸ Nat.mul_le_mul_left w (Nat.succ_le_of_lt h)
          omega
      rw [if_neg hout, if_neg hji, Fp.testBit_elem]
  · have h0 : (if j = i then x % 2 ^ w else Fp.elem v w j).testBit b = false := by
      split <;> simp [Fp.elem, hb]
    simp [h0, hb]

/-! ## v registers (R110) -/

@[simp] theorem Cobble.fpN_setFpN (k : Cobble) (n m : Nat) (v : W64) :
    (k.setFpN n v).fpN m = if m = n then v else k.fpN m := by
  simp [Cobble.fpN, Cobble.setFpN]

/-- A write of v register n reaches f registers 4n to 4n + 3 and no other. -/
theorem Cobble.fpN_setVec (k : Cobble) (n v m : Nat) :
    (k.setVec n v).fpN m = if m / 4 = n then BitVec.ofNat 64 (v / 2 ^ (64 * (m % 4))) else k.fpN m := by
  have hm : m = 4 * (m / 4) + m % 4 := by omega
  have hr : m % 4 < 4 := Nat.mod_lt _ (by decide)
  simp only [Cobble.setVec, Cobble.fpN_setFpN]
  generalize m / 4 = q, m % 4 = r at hm hr
  subst hm
  by_cases hq : q = n
  · subst hq
    obtain rfl | rfl | rfl | rfl : r = 0 ∨ r = 1 ∨ r = 2 ∨ r = 3 := by omega
    all_goals simp
  · have hne : ∀ j, j < 4 → 4 * q + r ≠ 4 * n + j := fun j hj => by omega
    simp [hq, hne 3, hne 2, hne 1, show 4 * q + r ≠ 4 * n from hne 0 (by decide)]

@[simp] theorem Cobble.vec_setVec (k : Cobble) (n v : Nat) : (k.setVec n v).vec n = v % 2 ^ 256 := by
  have h : ∀ j, j < 4 → (k.setVec n v).fpN (4 * n + j) = BitVec.ofNat 64 (v / 2 ^ (64 * j)) := fun j hj => by
    rw [Cobble.fpN_setVec, if_pos (by omega), show (4 * n + j) % 4 = j by omega]
  have h0 := h 0 (by decide)
  rw [Nat.add_zero] at h0
  rw [Cobble.vec, h0, h 1 (by decide), h 2 (by decide), h 3 (by decide)]
  simp only [BitVec.toNat_ofNat]
  omega

/-- Settles O26: the f registers by Cobble.fpN_setVec, the elements by Fp.elem_build and Fp.elem_splice. -/
theorem vectorElementsAreIndependent : Obligations.VectorElementsAreIndependent := by
  intro k n v hv
  refine ⟨?_, fun j hj => ?_, fun m hm => ?_, fun w f m i _ hi => Fp.elem_build f hi,
    fun w i j x _ => Fp.elem_splice v w i j x⟩
  · rw [Cobble.vec_setVec, Nat.mod_eq_of_lt hv]
  · rw [Cobble.fpN_setVec, if_pos (by omega), show (4 * n + j) % 4 = j by omega]
  · rw [Cobble.fpN_setVec, if_neg hm]

/-! ## What reads and writes of memory leave alone -/

/-- An update that leaves every cobble, byte, FE bit, poisoned row and upset row. -/
def CobblesAndMemoryKept (s t : State) : Prop := t.cobs = s.cobs ∧ sameMemory s t

theorem CobblesAndMemoryKept.trans {s t u : State} (h : CobblesAndMemoryKept s t) (h' : CobblesAndMemoryKept t u) :
    CobblesAndMemoryKept s u := by
  obtain ⟨hc, hm, hf, hp, hu⟩ := h
  obtain ⟨hc', hm', hf', hp', hu'⟩ := h'
  exact ⟨hc'.trans hc, hm'.trans hm, hf'.trans hf, hp'.trans hp, hu'.trans hu⟩

theorem State.countCe_writes (s : State) (n : Nat) : ∃ b q, s.countCe n = { s with blks := b, satDue := q } :=
  ⟨_, State.satLog_writes _ _ _ _ _ _⟩

theorem State.countUe_writes (s : State) (a : Nat) (x : Bool) :
    ∃ b q l, s.countUe a x = { s with blks := b, satDue := q, logSlots := l } := by
  unfold State.countUe
  dsimp only
  obtain ⟨q, h⟩ := State.satLog_writes (s.setBlk (blkOfFlat a) { s.blk (blkOfFlat a) with
    uecnt := satInc (s.blk (blkOfFlat a)).uecnt }) 2 (blkOfFlat a) 1
    (s.blk (blkOfFlat a)).uecnt (satInc (s.blk (blkOfFlat a)).uecnt)
  rw [h]
  obtain ⟨l, hl⟩ := State.logBlk_writes _ (blkOfFlat a) 2 (ueFields a x)
  exact ⟨_, q, l, hl⟩

theorem State.detect_keeps (s : State) (a : Nat) (x : Bool) : CobblesAndMemoryKept s (s.detect a x) := by
  unfold State.detect
  split
  · exact ⟨rfl, rfl, rfl, rfl, rfl⟩
  · obtain ⟨b, q, l, h⟩ := s.countUe_writes a x
    rw [h]
    exact ⟨rfl, rfl, rfl, rfl, rfl⟩

theorem State.readRow_keeps (s : State) (a : Nat) (x : Bool) : CobblesAndMemoryKept s (s.readRow a x).2 := by
  unfold State.readRow
  split
  · exact ⟨rfl, rfl, rfl, rfl, rfl⟩
  · split
    · exact ⟨rfl, rfl, rfl, rfl, rfl⟩
    · obtain ⟨b, q, h⟩ := s.countCe_writes (blkOfFlat a)
      rw [h]
      exact ⟨rfl, rfl, rfl, rfl, rfl⟩
    · exact s.detect_keeps _ _

theorem State.readRows_keeps (s : State) (l : List Nat) : CobblesAndMemoryKept s (s.readRows l).2 := by
  induction l generalizing s with
  | nil => exact ⟨rfl, rfl, rfl, rfl, rfl⟩
  | cons a as ih => exact (s.readRow_keeps a false).trans (ih _)

/-- A read of rows that are clean changes nothing and finds no poison. -/
theorem State.readRows_clean {s : State} {l : List Nat}
    (h : ∀ r ∈ l, lget false s.psn (rowOf r) = false ∧ lget 0 s.upset (rowOf r) = 0) : s.readRows l = (false, s) := by
  induction l with
  | nil => rfl
  | cons a as ih =>
    obtain ⟨hp, hu⟩ := h a (List.mem_cons_self ..)
    have ha : s.readRow a = (false, s) := by simp [State.readRow, hp, hu]
    simp [State.readRows, ha, ih fun r hr => h r (List.mem_cons_of_mem a hr)]

/-- A read that touches a poisoned row finds poison. -/
theorem State.readRows_poisoned {s : State} {l : List Nat} (h : ∃ r ∈ l, lget false s.psn (rowOf r) = true) :
    (s.readRows l).1 = true := by
  induction l generalizing s with
  | nil => simp at h
  | cons a as ih =>
    obtain ⟨r, hr, hp⟩ := h
    show ((s.readRow a).1 || ((s.readRow a).2.readRows as).1) = true
    rcases List.mem_cons.1 hr with rfl | hr
    · simp [State.readRow, hp]
    · obtain ⟨-, -, -, hpsn, -⟩ := s.readRow_keeps a false
      simp [ih ⟨r, hr, hpsn ▸ hp⟩]

@[simp] theorem State.writeRow_cobs (s : State) (a : Nat) (full psn : Bool) : (s.writeRow a full psn).cobs = s.cobs := by
  unfold State.writeRow
  dsimp only
  split
  · rfl
  · exact (s.readRow_keeps _ _).1

@[simp] theorem State.writeRowsOf_cobs (s : State) (a m n : Nat) (psn : Bool) (l : List Nat) :
    (s.writeRowsOf a m n psn l).cobs = s.cobs := by
  induction l generalizing s with
  | nil => rfl
  | cons x xs ih =>
    rw [State.writeRowsOf, ih]
    split <;> simp

@[simp] theorem State.wrBytes_cobs (s : State) (a m : Nat) (d : List Byte) : (s.wrBytes a m d).cobs = s.cobs := by
  induction d generalizing s a m with
  | nil => rfl
  | cons v vs ih =>
    rw [State.wrBytes, ih]
    split <;> rfl

@[simp] theorem State.writeMem_cob (s : State) (a m : Nat) (d : List Byte) (psn : Bool) (c : Nat) :
    (s.writeMem a m d psn).cob c = s.cob c := by
  simp [State.cob, State.writeMem]

/-! ## Bytes and masks -/

@[simp] theorem toBytes_length (n x : Nat) : (toBytes n x).length = n := by
  induction n generalizing x with
  | zero => rfl
  | succ n ih => simp [toBytes, ih]

theorem toBytes_getD {n i : Nat} (x : Nat) (h : i < n) : (toBytes n x).getD i 0 = BitVec.ofNat 8 (x / 256 ^ i) := by
  induction n generalizing x i with
  | zero => omega
  | succ n ih =>
    cases i with
    | zero => simp [toBytes]
    | succ i => rw [toBytes, List.getD_cons_succ, ih _ (by omega), Nat.div_div_eq_div_mul, Nat.pow_succ, Nat.mul_comm]

theorem bit_maskN {n i : Nat} (h : i < n) : bit (maskN n) i = true := by
  simpa [bit, maskN, Nat.testBit_eq_decide_div_mod_eq] using (Nat.testBit_two_pow_sub_one n i).trans (decide_eq_true h)

/-- A write of all `n` bytes of a number reaches those bytes and no other. -/
theorem State.writeMem_toBytes_rd8 {s : State} (h : Memory.wf s.mem = true) (a n v x : Nat) :
    (s.writeMem a (maskN n) (toBytes n v)).rd8 x =
      if a ≤ x ∧ x < a + n then BitVec.ofNat 8 (v / 256 ^ (x - a)) else s.rd8 x := by
  rw [State.writeMem_rd8 h, toBytes_length]
  by_cases hx : a ≤ x ∧ x < a + n
  · have hi : x - a < n := by omega
    rw [if_pos ⟨hx.1, hx.2, bit_maskN hi⟩, if_pos hx, toBytes_getD v hi]
  · rw [if_neg fun h => hx ⟨h.1, h.2.1⟩, if_neg hx]

/-! ## Issue of an SVX or tile instruction (R130, R136) -/

section Issue

variable {s : State} {c : Nat} {w : W32} {lane : Bool} {ints : List (BitVec 6)} {vs : List (BitVec 3)}
  {ok : Cobble → Bool} {body : Cobble → State → State} (h : s.ready c ints (vregs vs) = true)
include h

theorem svx_runs (hz : (s.cob c).pz = false) (hl : lane = false ∨ (s.cob c).asleep = false) (hok : ok (s.cob c) = true) :
    svx c w lane ints vs ok body s = .next (body (s.cob c) s) := by
  rw [svx, issue_ready h]
  rcases hl with hl | hl <;> simp [hz, hok, hl]

theorem svx_wakes (hz : (s.cob c).pz = false) (hl : lane = true) (ha : (s.cob c).asleep = true) (hok : ok (s.cob c) = true) :
    svx c w lane ints vs ok body s = .next (s.setCob c { s.cob c with waking := true }) := by
  rw [svx, issue_ready h]
  simp [hz, hok, hl, ha]

theorem svx_illegal (hx : (s.cob c).pz = true ∨ ok (s.cob c) = false) :
    svx c w lane ints vs ok body s = .next (s.illegal c w) := by
  rw [svx, issue_ready h]
  rcases hx with hx | hx <;> simp [hx]

end Issue

/-! ## VLD and VST (R119 to R121) -/

section VectorMemory

variable {s : State} {c : Nat} {ea : W64} {wr : Bool}

theorem State.vecTrap_access (h : 2 ^ 14 ≤ ea.toNat ∨ wr = true ∧ ea.toNat < (s.cob c).codelim) :
    s.vecTrap c ea wr = some (s.trap c 5 ea) := by
  simp only [State.vecTrap]
  rw [if_pos (by simpa using h)]

theorem State.vecTrap_misaligned (h : ea.toNat < 2 ^ 14) (hw : wr = true → (s.cob c).codelim ≤ ea.toNat)
    (ha : ea.toNat % 32 ≠ 0) : s.vecTrap c ea wr = some (s.trap c 4 ea) := by
  simp only [State.vecTrap]
  rw [if_neg (by simpa using ⟨h, hw⟩), if_pos (by simpa using ha)]

theorem State.vecTrap_none (h : ea.toNat < 2 ^ 14) (hw : wr = true → (s.cob c).codelim ≤ ea.toNat)
    (ha : ea.toNat % 32 = 0) : s.vecTrap c ea wr = none := by
  simp only [State.vecTrap]
  rw [if_neg (by simpa using ⟨h, hw⟩), if_neg (by simpa using ha)]

end VectorMemory

section VectorAccess

variable {s : State} {c : Nat} {v : BitVec 3} {rs1 : BitVec 6} {imm : BitVec 14} {ea : W64} {t : State}
  (he : ea = (s.cob c).int rs1 + 32 * imm.signExtend 64) (h : s.ready c [rs1] (vregs [v]) = true) (hz : (s.cob c).pz = false)
include he h hz

theorem exec_vld_traps (ht : s.vecTrap c ea false = some t) : exec (.vld c v rs1 imm) s = .next t := by
  show execVld c v rs1 imm s = _
  rw [execVld, svx_runs h hz (.inl rfl)]
  · simp only [← he, ht]
  · rfl

theorem exec_vst_traps (ht : s.vecTrap c ea true = some t) : exec (.vst c v rs1 imm) s = .next t := by
  show execVst c v rs1 imm s = _
  rw [execVst, svx_runs h hz (.inl rfl)]
  · simp only [← he, ht]
  · rfl

/-- With no store in the buffer VLD reads its rows; a poisoned one traps. -/
theorem exec_vld_reads (ht : s.vecTrap c ea false = none) (hb : (s.cob c).stbuf = [])
    {a : Nat} (ha : a = scrAddr c ea.toNat) {p : Bool} (hr : s.readRows (rowsOf a 32) = (p, t)) :
    exec (.vld c v rs1 imm) s = .next (if p then t.trap c 6 ea
      else t.retire c ((t.cob c).setVec v.toNat (ofBytes (s.rdN a 32)))) := by
  show execVld c v rs1 imm s = _
  rw [execVld, svx_runs h hz (.inl rfl)]
  · have hy : ∀ o, youngest [] o 32 = none := fun _ => rfl
    simp only [← he, ht, hb, hy, State.readMem, ← ha, hr]
  · rfl

theorem exec_vst_holds (ht : s.vecTrap c ea true = none) (hb : (s.cob c).stbuf ≠ []) :
    exec (.vst c v rs1 imm) s = .next s := by
  show execVst c v rs1 imm s = _
  rw [execVst, svx_runs h hz (.inl rfl)]
  · simp only [← he, ht]
    simp [hb]
  · rfl

theorem exec_vst_writes (ht : s.vecTrap c ea true = none) (hb : (s.cob c).stbuf = []) :
    exec (.vst c v rs1 imm) s = .next ((s.retire c (s.cob c)).writeMem (scrAddr c ea.toNat)
      (maskN 32) (toBytes 32 ((s.cob c).vec v.toNat))) := by
  show execVst c v rs1 imm s = _
  rw [execVst, svx_runs h hz (.inl rfl)]
  · simp only [← he, ht, hb, Cobble.v, List.isEmpty_nil, Bool.not_true, Bool.false_eq_true, if_false]
  · rfl

end VectorAccess

/-- Settles O27: the address checks by State.vecTrap, the load by its rows' check bits, the store by the bytes that a write
of memory reaches. -/
theorem vectorLoadsAndStores : Obligations.VectorLoadsAndStores := by
  intro s c v rs1 imm h k ea a hz
  refine ⟨fun hlt hal => ⟨fun hb hclean => ?_, fun hb hpsn => ?_, fun hlim hb hwf => ?_, fun hlim hb => ?_⟩,
    fun hge => exec_vld_traps rfl h hz (State.vecTrap_access (.inl hge)),
    fun hx => exec_vst_traps rfl h hz (State.vecTrap_access (hx.imp id fun hx => ⟨rfl, hx⟩)),
    fun hlt hal => exec_vld_traps rfl h hz (State.vecTrap_misaligned hlt nofun hal),
    fun hlt hlim hal => exec_vst_traps rfl h hz (State.vecTrap_misaligned hlt (fun _ => hlim) hal)⟩
  · exact exec_vld_reads rfl h hz (State.vecTrap_none hlt nofun hal) hb rfl (State.readRows_clean hclean)
  · obtain ⟨hcobs, hmem⟩ := s.readRows_keeps (rowsOf a 32)
    have hr : s.readRows (rowsOf a 32) = (true, (s.readRows (rowsOf a 32)).2) :=
      Prod.ext (State.readRows_poisoned hpsn) rfl
    exact ⟨_, exec_vld_reads rfl h hz (State.vecTrap_none hlt nofun hal) hb rfl hr, hcobs, hmem⟩
  · refine ⟨_, exec_vst_writes rfl h hz (State.vecTrap_none hlt (fun _ => hlim) hal) hb, ?_, fun d hd => ?_, fun x => ?_⟩
    · rw [State.writeMem_cob]
      exact State.setCob_cob_same _ _ _
    · rw [State.writeMem_cob]
      exact (State.setCob_cob _ _ _ _).trans (if_neg hd)
    · exact State.writeMem_toBytes_rd8 (s := s.retire c k) hwf a 32 (k.vec v.toNat) x
  · exact exec_vst_holds rfl h hz (State.vecTrap_none hlt (fun _ => hlim) hal) hb

/-! ## Element operations (R117, R118) -/

/-- A member of group 0x1D writes its operation on each element and adds the elements' flags. -/
theorem svxElements_of_vArith {s : State}
    {i : Nat → BitVec 3 → BitVec 3 → BitVec 3 → BitVec 3 → BitVec 3 → BitVec 7 → Instr} {op : Nat} {tern : Bool}
    (hi : ∀ c vd vs1 vs2 vs3 ty fn, exec (i c vd vs1 vs2 vs3 ty fn) s = vArith op c vd vs1 vs2 vs3 ty fn s)
    (ht : tern = (decide (3 ≤ op) && decide (op < 6))) : svxElements s i op tern := by
  intro c vd vs1 vs2 vs3 ty fn F ⟨hr, hz, ha⟩ hF hfn halt
  subst ht
  rw [hi, vArith, svx_runs hr hz (.inr ha)]
  · simp only [hF, Option.getD_some]
    rfl
  · rcases halt with rfl | rfl | rfl <;> simp [hF, hfn, is8]

theorem exec_vsel {s : State} {c : Nat} {vd vs1 vs2 vs3 ty : BitVec 3} {fn : BitVec 7} (h : svxReady s c [] [vd, vs1, vs2, vs3])
    (hfn : fn = 0 ∨ fn.toNat < 8 ∧ (ty = 4 ∨ ty = 5)) :
    exec (.vsel c vd vs1 vs2 vs3 ty fn) s = s.put c ((s.cob c).setVec vd.toNat
      (bitSel ((s.cob c).vec vs1.toNat) ((s.cob c).vec vs2.toNat) ((s.cob c).vec vs3.toNat))) := by
  obtain ⟨hr, hz, ha⟩ := h
  show execVsel c vd vs1 vs2 vs3 ty fn s = _
  rw [execVsel, svx_runs hr hz (.inr ha)]
  · rfl
  · rcases hfn with rfl | ⟨hlt, rfl | rfl⟩
    · simp
    · simp [hlt]
    · simp [hlt]

/-- Settles O24: each element operation is a member of the group, VSEL the select on bits. -/
theorem svxArithmetic : Obligations.SvxArithmetic := by
  intro s
  refine ⟨?_, ?_, ?_, ?_, ?_, ?_, ?_, ?_, ?_, ?_, ?_, fun c vd vs1 vs2 vs3 ty fn => exec_vsel⟩ <;>
    exact svxElements_of_vArith (fun _ _ _ _ _ _ _ => rfl) rfl

/-! ## Conversion (R123 to R125) -/

/-- The fn field of VCVT: part p, SCALE and AMAX. -/
def vcvtFn (p : BitVec 3) (scale am : Bool) : BitVec 11 := BitVec.ofNat 11 (p.toNat + 8 * boolNat scale + 16 * boolNat am)

theorem vcvtFn_part (p : BitVec 3) (scale am : Bool) : (vcvtFn p scale am).toNat % 8 = p.toNat := by
  revert p scale am; decide
theorem vcvtFn_lt (p : BitVec 3) (scale am : Bool) : (vcvtFn p scale am).toNat < 32 := by
  revert p scale am; decide
theorem vcvtFn_scale (p : BitVec 3) (scale am : Bool) : (vcvtFn p scale am).getLsbD 3 = scale := by
  revert p scale am; decide
theorem vcvtFn_amax (p : BitVec 3) (scale am : Bool) : (vcvtFn p scale am).getLsbD 4 = am := by
  revert p scale am; decide
theorem zeroExtend_eq_vcvtFn (p : BitVec 3) : p.zeroExtend 11 = vcvtFn p false false := by
  revert p; decide

/-- How many elements VCVT converts: those of the wider format in a register. -/
def cvtCount (S F : Fp.Fmt) : Nat := if F.width < S.width then 256 / S.width else 256 / F.width

/-- The first element of vs1 that VCVT of part `p` converts. -/
def cvtFirst (S F : Fp.Fmt) (p : Nat) : Nat := if F.width < S.width then 0 else p * cvtCount S F

/-- The image of vd after VCVT of part `p`: narrowing keeps what lies outside the part. -/
def cvtPlace (S F : Fp.Fmt) (p old x : Nat) : Nat :=
  if F.width < S.width then Fp.splice old (p * (256 / (S.width / F.width))) (256 / (S.width / F.width)) x else x

/-- The elements that VCVT writes. -/
def Cobble.cvtElems (k : Cobble) (S F : Fp.Fmt) (vs1 : BitVec 3) (p : Nat) (scale : Bool) : Nat × Fp.Flags :=
  Fp.build F.width (fun i => convElem S F k.dir k.ovf
    (if scale then (scaleExp S F k.svscale.toNat).map (fun e => (k.svscale.toNat, e)) else none)
    (Fp.elem (k.vec vs1.toNat) S.width (cvtFirst S F p + i))) (cvtCount S F)

/-- AMAX joined with the magnitudes of the elements that VCVT reads. -/
def Cobble.cvtAmax (k : Cobble) (S F : Fp.Fmt) (vs1 : BitVec 3) (p : Nat) : Bool × Nat :=
  Fp.amaxAll k.amaxNan k.amax.toNat
    ((List.range (cvtCount S F)).map (fun i => Fp.decode S (Fp.elem (k.vec vs1.toNat) S.width (cvtFirst S F p + i))))

/-- The cobble after VCVT, before it moves on. -/
def Cobble.cvt (k : Cobble) (S F : Fp.Fmt) (vd vs1 : BitVec 3) (p : Nat) (scale am : Bool) : Cobble :=
  let r := k.cvtElems S F vs1 p scale
  let k1 := k.setVec vd.toNat (cvtPlace S F p (k.vec vd.toNat) r.1)
  (if am then { k1 with amaxNan := (k.cvtAmax S F vs1 p).1, amax := BitVec.ofNat 31 (k.cvtAmax S F vs1 p).2 } else k1).raise r.2

section CvtFields

variable (k : Cobble) (S F : Fp.Fmt) (vd vs1 : BitVec 3) (p : Nat) (scale am : Bool)

theorem Cobble.cvt_vec : (k.cvt S F vd vs1 p scale am).vec vd.toNat =
    cvtPlace S F p (k.vec vd.toNat) (k.cvtElems S F vs1 p scale).1 % 2 ^ 256 := by
  cases am <;> exact Cobble.vec_setVec k _ _
theorem Cobble.cvt_fpflags : (k.cvt S F vd vs1 p scale am).fpflags = k.fpflags ||| (k.cvtElems S F vs1 p scale).2 := by
  cases am <;> rfl
theorem Cobble.cvt_pc : (k.cvt S F vd vs1 p scale am).pc = k.pc := by
  cases am <;> rfl
theorem Cobble.cvt_ints : (k.cvt S F vd vs1 p scale am).ints = k.ints := by
  cases am <;> rfl
theorem Cobble.cvt_amax : if am then (k.cvt S F vd vs1 p scale am).amaxNan = (k.cvtAmax S F vs1 p).1 ∧
      (k.cvt S F vd vs1 p scale am).amax = BitVec.ofNat 31 (k.cvtAmax S F vs1 p).2
    else (k.cvt S F vd vs1 p scale am).amaxNan = k.amaxNan ∧ (k.cvt S F vd vs1 p scale am).amax = k.amax := by
  cases am <;> exact ⟨rfl, rfl⟩

end CvtFields

/-- Which scaling a conversion has does not depend on the scale byte. -/
theorem scaleExp_isSome (S F : Fp.Fmt) (b : Nat) : (scaleExp S F 0).isSome = (scaleExp S F b).isSome := by
  unfold scaleExp
  split
  · rfl
  · split <;> rfl

section Vcvt

variable {s : State} {c : Nat} {vd vs1 vs2 tyS ty : BitVec 3} {S F : Fp.Fmt} (h : svxReady s c [] [vd, vs1])
  (hS : Fp.ofCode tyS = some S) (hF : Fp.ofCode ty = some F) (hne : tyS ≠ ty) (p : BitVec 3) (scale am : Bool)
  (hsc : scale = true → (scaleExp S F (s.cob c).svscale.toNat).isSome = true) (ham : am = true → F.wide = false)
include h hS hF hne hsc ham

theorem exec_vcvt (hp : p.toNat < (if F.width < S.width then S.width / F.width else F.width / S.width)) :
    exec (.vcvt c vd vs1 vs2 tyS ty (vcvtFn p scale am)) s = s.put c ((s.cob c).cvt S F vd vs1 p.toNat scale am) := by
  obtain ⟨hr, hz, ha⟩ := h
  show execVcvt c vd vs1 vs2 tyS ty (vcvtFn p scale am) s = _
  rw [execVcvt, svx_runs hr hz (.inr ha)]
  · simp only [hS, hF, Option.getD_some, vcvtFn_part, vcvtFn_scale, vcvtFn_amax, decide_eq_true_eq, Cobble.cvt, Cobble.cvtElems,
      Cobble.cvtAmax, cvtPlace, cvtFirst, cvtCount]
    by_cases hW : F.width < S.width
    · simp only [if_pos hW]
      cases am <;> rfl
    · simp only [if_neg hW]
      cases am <;> rfl
  · have hsc' : scale = false ∨ (scaleExp S F 0).isSome = true :=
      (Bool.eq_false_or_eq_true scale).symm.imp_right fun hs => (scaleExp_isSome S F _).trans (hsc hs)
    have ham' : am = false ∨ F.wide = false := (Bool.eq_false_or_eq_true am).symm.imp_right ham
    simpa [hS, hF, vcvtFn_part, vcvtFn_lt, hne, hp, ← BitVec.getLsbD_eq_getElem, vcvtFn_scale, vcvtFn_amax] using
      And.intro hsc' ham'

end Vcvt

/-! ## Complex products, SPLIT3 and element moves (R122, R126 to R128) -/

theorem box32_eq_append (x : Nat) : box32 x = 0xFFFFFFFF#32 ++ BitVec.ofNat 32 x := by
  apply BitVec.eq_of_toNat_eq
  refine Eq.trans ?_ (BitVec.toNat_append _ _).symm
  rw [← Nat.shiftLeft_add_eq_or_of_lt (BitVec.isLt _), Nat.shiftLeft_eq, box32, BitVec.toNat_ofNat, BitVec.toNat_ofNat,
    BitVec.toNat_ofNat]
  omega

/-- The components of vs1 × vs2, or × its conjugate, each with its addend of `z` where there is one (R126, R127). -/
def Cobble.cplxElems (k : Cobble) (F : Fp.Fmt) (vs1 vs2 : BitVec 3) (conj : Bool) (z : Nat → Option Fp.FVal) :
    Nat × Fp.Flags :=
  let g := fun (v : BitVec 3) (i : Nat) => Fp.decode F (Fp.elem (k.vec v.toNat) F.width i)
  Fp.build F.width (fun i =>
    let j := i / 2 * 2
    let xr := g vs1 j
    let xi := g vs1 (j + 1)
    let yr := g vs2 j
    let yi := if conj then (g vs2 (j + 1)).negate else g vs2 (j + 1)
    if i % 2 = 0 then cplx F k.dir true [xr, xi, yr, yi] xr yr xi yi (z i)
    else cplx F k.dir false [xr, xi, yr, yi] xr yi xi yr (z i)) (256 / F.width)

section Moves

variable {s : State} {c : Nat} {vd vs1 vs2 vs3 ty : BitVec 3} {F : Fp.Fmt} (hF : Fp.ofCode ty = some F)
include hF

theorem vComplex_runs {add : Bool} (h : svxReady s c [] (if add then [vd, vs1, vs2, vs3] else [vd, vs1, vs2]))
    (hty : ty = 0 ∨ ty = 1) (conj : Bool) :
    vComplex add c vd vs1 vs2 vs3 ty conj 0 s =
      let r := (s.cob c).cplxElems F vs1 vs2 conj
        (fun i => if add then some (Fp.decode F (Fp.elem ((s.cob c).vec vs3.toNat) F.width i)) else none)
      s.put c (((s.cob c).setVec vd.toNat r.1).raise r.2) := by
  obtain ⟨hr, hz, ha⟩ := h
  rw [vComplex, svx_runs hr hz (.inr ha)]
  · simp only [hF, Option.getD_some]
    rfl
  · rcases hty with rfl | rfl <;> rfl

theorem exec_vsplit3 (h : svxReady s c [] [vd, vd + 1, vs1]) (hty : ty = 0 ∨ ty = 1) (hv : vd.toNat % 2 = 0) :
    exec (.vsplit3 c vd vs1 vs2 vs3 ty 0) s =
      let D := if ty = 0 then Fp.fp32 else Fp.w16
      let get := fun i => Fp.split3 F D (Fp.elem ((s.cob c).vec vs1.toNat) F.width i)
      let h := Fp.build D.width (fun i => ((get i).1.1, (get i).2)) (256 / F.width)
      let m := Fp.build D.width (fun i => ((get i).1.2.1, 0)) (256 / F.width)
      let l := Fp.build D.width (fun i => ((get i).1.2.2, 0)) (256 / F.width)
      s.put c ((((s.cob c).setVec vd.toNat (h.1 + m.1 * 2 ^ 128)).setVec (vd.toNat + 1) l.1).raise h.2) := by
  obtain ⟨hr, hz, ha⟩ := h
  show execVsplit3 c vd vs1 vs2 vs3 ty 0 s = _
  rw [execVsplit3, svx_runs hr hz (.inr ha)]
  · simp only [hF, Option.getD_some]
    rfl
  · rcases hty with rfl | rfl <;> simp [hv]

variable (hz : (s.cob c).pz = false) {reg : BitVec 6}
include hz

/-- VBCAST, from an integer register (`x` true) or an f register. -/
theorem exec_vbcast {x : Bool} (h : s.ready c (if x then [reg] else []) (vregs [vd] ++ if x then [] else [reg]) = true) :
    exec (.vbcast c vd 0 reg ty 0 (if x then 4 else 0)) s = s.put c ((s.cob c).setVec vd.toNat (Fp.build F.width
      (fun _ => ((if x then (s.cob c).int reg else (s.cob c).fpN reg.toNat).toNat, 0)) (256 / F.width)).1) := by
  show execVbcast c vd 0 reg ty 0 (if x then 4 else 0) s = _
  have hx : (if x then 4 else 0 : BitVec 3).getLsbD 2 = x ∧ (if x then 4 else 0 : BitVec 3).toNat % 4 = 0 := by
    cases x <;> decide
  rw [execVbcast]
  simp only [hx.1]
  rw [issue_ready h]
  simp only [hF, hz, hx.2]
  rfl

theorem exec_vext {idx : BitVec 6} (hi : idx.toNat < 256 / F.width) (h : s.ready c [] (reg :: vregs [vs1]) = true) :
    exec (.vext c 0 vs1 reg ty idx 0) s = s.put c ((s.cob c).setFpN reg.toNat
      (let x := Fp.elem ((s.cob c).vec vs1.toNat) F.width idx.toNat
       if ty = 1 then 0xFFFFFFFF#32 ++ BitVec.ofNat 32 x else BitVec.ofNat 64 x)) := by
  show execVext c 0 vs1 reg ty idx 0 s = _
  rw [execVext, issue_ready h]
  simp only [hF, hz, Option.getD_some, box32_eq_append]
  rw [if_neg (by simpa using hi)]
  rfl

theorem exec_vins {idx : BitVec 6} (hi : idx.toNat < 256 / F.width) (h : s.ready c [] (reg :: vregs [vd]) = true) :
    exec (.vins c vd 0 reg ty idx 0) s = s.put c ((s.cob c).setVec vd.toNat
      (Fp.splice ((s.cob c).vec vd.toNat) (F.width * idx.toNat) F.width ((s.cob c).fpN reg.toNat).toNat)) := by
  show execVins c vd 0 reg ty idx 0 s = _
  rw [execVins, issue_ready h]
  simp only [hF, hz, Option.getD_some]
  rw [if_neg (by simpa using hi)]
  rfl

end Moves

/-- A write of one cobble leaves the others and the memories. -/
theorem State.setCob_frame (s : State) (c : Nat) (k : Cobble) : otherCobbles c s (s.setCob c k) ∧ sameMemory s (s.setCob c k) :=
  ⟨fun d hd => (s.setCob_cob c k d).trans (if_neg hd), rfl, rfl, rfl, rfl⟩

/-- Settles O25: VCVT by Cobble.cvt and its fields, the complex operations by Cobble.cplxElems, the moves each by its own
rule. -/
theorem svxMovesAndConversions : Obligations.SvxMovesAndConversions := by
  intro s c vd vs1 vs2 vs3 ty F hF k W
  refine ⟨fun h tyS S p hS hne => ⟨fun (hW : F.width < S.width) hp => ?_, fun (hW : S.width ≤ F.width) hp => ?_,
      fun scale am hsc ham hp => ?_⟩,
    fun hty conj => ⟨fun h => ?_, fun h => ?_, fun h hv => exec_vsplit3 hF h hty hv⟩,
    fun reg hz => ⟨fun h => ?_, fun h => exec_vbcast hF hz (x := false) h,
      fun idx hi => ⟨exec_vext hF hz hi, exec_vins hF hz hi⟩⟩⟩
  · rw [zeroExtend_eq_vcvtFn, exec_vcvt h hS hF hne p false false nofun nofun (by rw [if_pos hW]; exact hp)]
    simp only [Cobble.cvt, Cobble.cvtElems, cvtPlace, cvtFirst, cvtCount, if_pos hW]
    rfl
  · have hW' := Nat.not_lt.2 hW
    rw [zeroExtend_eq_vcvtFn, exec_vcvt h hS hF hne p false false nofun nofun (by rw [if_neg hW']; exact hp)]
    simp only [Cobble.cvt, Cobble.cvtElems, cvtPlace, cvtFirst, cvtCount, if_neg hW']
    rfl
  · have hx := exec_vcvt (vs2 := vs2) h hS hF hne p scale am (fun hs => Option.isSome_iff_ne_none.2 (hsc hs)) ham hp
    obtain ⟨ho, hm⟩ := s.setCob_frame c (k.cvt S F vd vs1 p.toNat scale am).adv
    refine ⟨_, hx, ?_⟩
    rw [State.setCob_cob_same]
    exact ⟨k.cvt_vec .., k.cvt_fpflags .., congrArg (· + 4) (k.cvt_pc ..), k.cvt_ints .., k.cvt_amax .., ho, hm⟩
  · exact vComplex_runs hF (add := false) h hty conj
  · exact vComplex_runs hF (add := true) h hty conj
  · exact exec_vbcast hF hz (x := true) (by rw [if_pos rfl, if_pos rfl, List.append_nil]; exact h)

/-! ## Small tiles (R132 to R134) -/

/-- The fn field of TLD: FP64 mode and ZERO. -/
theorem tldFn_fields (f64 zero : Bool) :
    (BitVec.ofNat 8 (2 * boolNat f64 + boolNat zero)).toNat < 4 ∧
      (BitVec.ofNat 8 (2 * boolNat f64 + boolNat zero)).getLsbD 0 = zero ∧
      (BitVec.ofNat 8 (2 * boolNat f64 + boolNat zero)).getLsbD 1 = f64 := by
  revert f64 zero; decide

section Tiles

variable {s : State} {c : Nat} {va vb ty : BitVec 3}

/-- In a piazza, or with the reserved type code, TLD and TST are illegal (R114, R136). -/
theorem exec_tld_illegal (h : s.ready c [] (vregs [va, va + 1]) = true) (hx : (s.cob c).pz = true ∨ ty = 7) (f : BitVec 8) :
    exec (.tld c va 0 0 0 ty ty f) s = .next (s.illegal c (wT 0x28 va 0 0 0 ty ty f)) :=
  svx_illegal h (hx.imp id fun hty => by simp [hty])

theorem exec_tst_illegal (h : s.ready c [] (vregs [va, va + 1]) = true) (hx : (s.cob c).pz = true ∨ ty = 7) (f : BitVec 8) :
    exec (.tst c va 0 0 0 ty ty f) s = .next (s.illegal c (wT 0x2A va 0 0 0 ty ty f)) :=
  svx_illegal h (hx.imp id fun hty => by simp [hty])

theorem exec_tld (h : s.ready c [] (vregs [va, va + 1]) = true) (hz : (s.cob c).pz = false) (hv : va.toNat % 2 = 0)
    (hty : ty ≠ 7)
    (f64 zero : Bool) :
    exec (.tld c va 0 0 0 ty ty (BitVec.ofNat 8 (2 * boolNat f64 + boolNat zero))) s = s.put c
      { (s.cob c).setTile (if zero then 0 else (s.cob c).vec va.toNat + 2 ^ 256 * (s.cob c).vec (va + 1).toNat) 16 with
        acc64 := f64 } := by
  obtain ⟨hlt, h0, h1⟩ := tldFn_fields f64 zero
  show execTld c va 0 0 0 ty ty _ s = _
  rw [execTld, svx_runs h hz (.inl rfl)]
  · simp only [h0, h1]
    rfl
  · simp only [hlt]
    simpa [hv] using hty

theorem exec_tst (h : s.ready c [] (vregs [va, va + 1]) = true) (hz : (s.cob c).pz = false) (hv : va.toNat % 2 = 0)
    (hty : ty ≠ 7) :
    exec (.tst c va 0 0 0 ty ty 0) s = s.put c (((s.cob c).setVec va.toNat ((s.cob c).tile % 2 ^ 256)).setVec (va.toNat + 1)
      ((s.cob c).tile / 2 ^ 256)) := by
  show execTst c va 0 0 0 ty ty 0 s = _
  rw [execTst, svx_runs h hz (.inl rfl)]
  · rfl
  · simpa [hv] using hty

/-- The type codes of the 8-bit formats. -/
theorem is8_of_mem {t : BitVec 3} (G : Fp.Fmt) (ht : t ∈ [4, 5]) : is8 ((Fp.ofCode t).getD G) = true := by
  obtain rfl | rfl : t = 4 ∨ t = 5 := by simpa only [List.mem_cons, List.not_mem_nil, or_false] using ht
  · rfl
  · rfl

theorem exec_tmac {tyB : BitVec 3} {F G : Fp.Fmt} (h : s.ready c [] (vregs [va, vb]) = true) (hz : (s.cob c).pz = false)
    (h64 : (s.cob c).acc64 = true → ty = 1) (h32 : (s.cob c).acc64 = false → ty ≠ 0) (hF : Fp.ofCode ty = some F)
    (hG : Fp.ofCode tyB = some G) (hty : tyB = ty ∨ ty ∈ [4, 5] ∧ tyB ∈ [4, 5]) :
    exec (.tmac c va vb 0 0 ty tyB 0) s =
      let k := s.cob c
      let a := k.vec va.toNat
      let b := k.vec vb.toNat
      let img := if k.acc64 then Fp.build 64 (fun e => tmac64 a b k (e / 2) (e % 2)) 8
        else Fp.build 32 (fun e => tmac32 F G a b k (e / 4) (e % 4)) 16
      s.put c ((k.setTile img.1 16).raise img.2) := by
  show execTmac c va vb 0 0 ty tyB 0 s = _
  rw [execTmac, svx_runs h hz (.inl rfl)]
  · simp only [hF, hG, Option.getD_some]
    rfl
  · have htypes : (ty == tyB || (is8 ((Fp.ofCode ty).getD Fp.fp32) && is8 ((Fp.ofCode tyB).getD Fp.fp32))) = true := by
      rcases hty with rfl | ⟨ha, hb⟩
      · simp
      · simp [is8_of_mem _ ha, is8_of_mem _ hb]
    have hacc : (if (s.cob c).acc64 then ty == 1 else ty != 0) = true := by
      cases hk : (s.cob c).acc64
      · simpa using h32 hk
      · simpa using h64 hk
    rw [htypes, hacc]
    simp [hF, hG]

end Tiles

/-! ## The lane unit (R129 to R131, R136) -/

theorem ofCode_isSome {ty : BitVec 3} (h : ty.toNat < 7) : (Fp.ofCode ty).isSome = true := by
  revert ty; decide

section LaneUnit

variable {s : State} {c : Nat}

theorem exec_tmac_illegal {va vb ty : BitVec 3} (h : s.ready c [] (vregs [va, vb]) = true) (hz : (s.cob c).pz = true) :
    exec (.tmac c va vb 0 0 ty ty 0) s = .next (s.illegal c (wT 0x29 va vb 0 0 ty ty 0)) :=
  svx_illegal h (.inl hz)

theorem exec_vadd_illegal {va vb ty : BitVec 3} (h : s.ready c [] (vregs [va, va, vb]) = true) (hz : (s.cob c).pz = true) :
    exec (.vadd c va va vb vb ty 0) s = .next (s.illegal c (wVR 0x1D va va vb vb ty (0#7 ++ 0#4))) :=
  svx_illegal h (.inl hz)

theorem exec_vadd_wakes {va vb ty : BitVec 3} (h : s.ready c [] (vregs [va, va, vb]) = true) (hz : (s.cob c).pz = false)
    (hty : ty.toNat < 7) (ha : (s.cob c).asleep = true) :
    exec (.vadd c va va vb vb ty 0) s = .next (s.setCob c { s.cob c with waking := true }) :=
  svx_wakes h hz rfl ha (by simp [ofCode_isSome hty])

variable (hc : c < nCobbles)
include hc

theorem exec_laneUnitWakeDone :
    exec (.laneUnitWakeDone c) s = .next (if (s.cob c).waking && !(s.cob c).pz then
      s.setCob c { s.cob c with asleep := false, waking := false } else s) :=
  if_pos hc

theorem exec_laneUnitPowerDown :
    exec (.laneUnitPowerDown c) s = .next (if (s.cob c).awakeReq || (s.cob c).asleep || (s.cob c).pz then s
      else s.setCob c { s.cob c with asleep := true }) :=
  if_pos hc

theorem exec_svxctlWrite (x : Bool) (hu : s.coreUp c = true) :
    exec (.svxctlWrite c x) s = .next (s.setCob c ((s.cob c).svxctl x)) :=
  (if_pos hc).trans (congrArg Host.Outcome.next (if_pos hu))

end LaneUnit

/-- Settles O28: each clause is the rule of its command above. -/
theorem smallTilesAndLaneUnit : Obligations.SmallTilesAndLaneUnit := by
  intro s c va vb ty hc k
  refine ⟨fun h _ _ hty f => ⟨_, exec_tld_illegal h (.inr hty) f, _, exec_tst_illegal h (.inr hty) f⟩,
    fun h hz hv hty => ⟨exec_tld h hz hv hty, exec_tst h hz hv hty⟩,
    fun h hz h64 h32 tyB F G hF hG hty => exec_tmac h hz h64 h32 hF hG hty,
    fun h hz f => ⟨_, exec_tld_illegal h (.inl hz) f, _, exec_tst_illegal h (.inl hz) f⟩,
    fun h hz => ⟨_, exec_tmac_illegal h hz⟩, fun h hz => ⟨_, exec_vadd_illegal h hz⟩,
    fun h hz hty ha => exec_vadd_wakes h hz hty ha, fun hz hw => ?_, fun hz hr ha => ?_, fun hr => ?_,
    fun x hu => exec_svxctlWrite hc x hu, fun hz => ⟨?_, ?_⟩⟩
  · rw [exec_laneUnitWakeDone hc, if_pos (by simp [k, hw, hz])]
  · rw [exec_laneUnitPowerDown hc, if_neg (by simp [k, hz, hr, ha])]
  · rw [exec_laneUnitPowerDown hc, if_pos (by simp [k, hr])]
  · rw [exec_laneUnitWakeDone hc, if_neg (by simp [k, hz])]
  · rw [exec_laneUnitPowerDown hc, if_pos (by simp [k, hz])]

end Sys2Proof.Machine

/-! # Piazza ISA instructions: issue, settings, the end of a count and lane power (08_piazza.md, R231, R250, R252) -/

namespace Sys2Proof.Machine

/-! ## Slots -/

@[simp] theorem State.lget_modSlot (s : State) (k : Nat) (f : Slot → Slot) :
    lget ({} : Slot) (s.modSlot k f).slots k = f (lget {} s.slots k) :=
  lget_lset_same _ _ _ _

/-- Only what an update makes of the slot as it stands matters. -/
theorem State.modSlot_congr {s : State} {k : Nat} {f g : Slot → Slot} (h : f (lget {} s.slots k) = g (lget {} s.slots k)) :
    s.modSlot k f = s.modSlot k g := by
  rw [State.modSlot, State.modSlot, h]

/-- A trap changes no slot. -/
@[simp] theorem State.trap_slots (s : State) (c cause : Nat) (info lpc : W64) : (s.trap c cause info lpc).slots = s.slots := by
  cases h : (s.cob c).tw
  · obtain ⟨tr, e⟩ := State.trap_enters h cause info lpc
    rw [e]; rfl
  · obtain ⟨i, p, b, l, e⟩ := s.exhaust_writes c
    rw [State.trap_exhausts h, e]; rfl

/-! ## Issue of a Piazza ISA instruction (R211 to R216, R249, R252) -/

/-- An instruction holds while one in flight writes a register that it names (R213, R249). -/
theorem issue_holds {s : State} {c : Nat} {w : W32} {ints fps : List (BitVec 6)} {body : Cobble → State → State}
    (hc : c < nCobbles) (hi : s.canIssue c = true) (hf : (s.cob c).badFetch = false)
    (hints : ∀ f ∈ ints, regIdx (s.cob c) f ≠ none) (hfps : ∀ f ∈ fps, f.toNat < 32)
    (hb : s.flyBusy c ints fps = true) : issue c w ints fps body s = .next s := by
  have h1 : ints.any (fun f => (regIdx (s.cob c) f).isNone) = false := by simpa using hints
  have h2 : fps.any (fun f => decide (32 ≤ f.toNat)) = false := by simpa using hfps
  rw [issue_attempts hc hi]
  simp [State.attempt, hf, h1, h2, hb]

/-- A tile register is the f register of the same number (R249). -/
theorem tile_toNat (t : BitVec 5) : (BitVec.ofNat 6 t.toNat).toNat = t.toNat := by
  rw [BitVec.toNat_ofNat]; omega

/-- A tile that an instruction in flight writes holds the instruction that reads it. -/
theorem State.flyBusy_of_tile {s : State} {c : Nat} {ints fps : List (BitVec 6)} {t : BitVec 5} (hz : (s.cob c).pz = true)
    (ht : BitVec.ofNat 6 t.toNat ∈ fps) (hf : ∃ f ∈ (s.slotOf c).fly, t.toNat ∈ f.use.outTiles) :
    s.flyBusy c ints fps = true := by
  obtain ⟨f, hf, hm⟩ := hf
  have hany : fps.any (fun r => f.use.outTiles.contains r.toNat) = true :=
    List.any_eq_true.2 ⟨_, ht, by simpa only [tile_toNat, List.contains_iff_mem] using hm⟩
  simp only [State.flyBusy, hz, Bool.true_and]
  exact List.any_eq_true.2 ⟨f, hf, by rw [hany, Bool.true_or]⟩

section PiazzaIssue

variable {s : State} {c : Nat} {w : W32} {pipe : Bool} {ints fps : List (BitVec 6)} {u : PUse} {ok : Cobble → Slot → Bool}
  {body : Nat → Cobble → Slot → State → State}

/-- What a Piazza ISA instruction does at a cobble whose registers are ready for it, in the order of its checks. -/
theorem pzOp_ready (h : s.ready c ints (fps ++ u.fps) = true) :
    pzOp c w pipe ints fps u ok body s = .next (
      if !(s.cob c).pz || !ok (s.cob c) (s.slotOf c) then s.illegal c w
      else if 16 ≤ (s.slotOf c).fly.length || (s.slotOf c).pzWaits u then s
      else if pipe && (s.slotOf c).asleep then s.modSlot (slotOfBlk (blkOf c)) (fun q => { q with waking := true })
      else (body (slotOfBlk (blkOf c)) (s.cob c) (s.slotOf c) s).tagFly (slotOfBlk (blkOf c)) (s.slotOf c).fly.length u
        (u.rd.bind (regIdx (s.cob c)))) :=
  issue_ready h

theorem pzOp_illegal (h : s.ready c ints (fps ++ u.fps) = true)
    (hx : (s.cob c).pz = false ∨ ok (s.cob c) (s.slotOf c) = false) :
    pzOp c w pipe ints fps u ok body s = .next (s.illegal c w) := by
  rw [pzOp_ready h, if_pos (by simpa using hx)]

theorem pzOp_holds (h : s.ready c ints (fps ++ u.fps) = true) (hz : (s.cob c).pz = true)
    (hok : ok (s.cob c) (s.slotOf c) = true) (hw : 16 ≤ (s.slotOf c).fly.length ∨ (s.slotOf c).pzWaits u = true) :
    pzOp c w pipe ints fps u ok body s = .next s := by
  rw [pzOp_ready h, if_neg (by simp [hz, hok]), if_pos (by simpa using hw)]

theorem pzOp_wakes (h : pzReady s c ints u fps) (hok : ok (s.cob c) (s.slotOf c) = true) (hp : pipe = true)
    (ha : (s.slotOf c).asleep = true) :
    pzOp c w pipe ints fps u ok body s =
      .next (s.modSlot (slotOfBlk (blkOf c)) (fun q => { q with waking := true })) := by
  obtain ⟨hr, hz, hn, hw⟩ := h
  rw [pzOp_ready hr, if_neg (by simp [hz, hok]), if_neg (by simp [hn, hw]), if_pos (by simp [hp, ha])]

theorem pzOp_runs (h : pzReady s c ints u fps) (hok : ok (s.cob c) (s.slotOf c) = true)
    (hl : pipe = false ∨ (s.slotOf c).asleep = false) :
    pzOp c w pipe ints fps u ok body s =
      pzNext s c u (body (slotOfBlk (blkOf c)) (s.cob c) (s.slotOf c) s) := by
  obtain ⟨hr, hz, hn, hw⟩ := h
  rw [pzOp_ready hr, if_neg (by simp [hz, hok]), if_neg (by simp [hn, hw]), if_neg (by rcases hl with hl | hl <;> simp [hl]),
    pzNext]

/-- An instruction that has not joined those in flight leaves no entry to keep its use. -/
theorem State.tagFly_of_slots {t : State} {sl : Nat} {reg : Option Nat} (h : t.slots = s.slots) :
    t.tagFly sl (lget ({} : Slot) s.slots sl).fly.length u reg = t := by
  rw [State.tagFly, h, List.getElem?_eq_none (Nat.le_refl _)]

/-- A Piazza ISA instruction that traps is not in flight. -/
theorem pzNext_trap (cause : Nat) (info lpc : W64) :
    pzNext s c u (s.trap c cause info lpc) = .next (s.trap c cause info lpc) :=
  congrArg Host.Outcome.next (State.tagFly_of_slots (s.trap_slots c cause info lpc))

/-- A check that traps comes before the instruction's effect. -/
theorem pzNext_trap_else (p : Prop) [Decidable p] (cause : Nat) (info lpc : W64) (t : State) :
    pzNext s c u (if p then s.trap c cause info lpc else t) =
      if p then .next (s.trap c cause info lpc) else pzNext s c u t := by
  split
  · exact pzNext_trap cause info lpc
  · rfl

end PiazzaIssue

section PiazzaPlaces

variable {s : State} {c : Nat}

theorem exec_accz_illegal (h : s.ready c [] [] = true) (hz : (s.cob c).pz = false) :
    exec (.accz c 0 0 0) s = .next (s.illegal c (wAcc 0 0 0 0)) := by
  change execAccz c 0 0 0 s = _
  exact pzOp_illegal h (.inl hz)

/-- The accumulators wait for a matrix operation (R242). -/
theorem exec_accz_holds (h : s.ready c [] [] = true) (hz : (s.cob c).pz = true)
    (hw : 16 ≤ (s.slotOf c).fly.length ∨ ∃ f ∈ (s.slotOf c).fly, f.use.acc = .matrix) :
    exec (.accz c 0 0 0) s = .next s := by
  change execAccz c 0 0 0 s = _
  refine pzOp_holds h hz rfl (hw.imp_right fun ⟨f, hf, hm⟩ => ?_)
  exact List.any_eq_true.2 ⟨f, hf, by simp [AccUse.waits, hm]⟩

/-- TOP holds while an instruction in flight writes a tile that it reads, whatever its operation and type (R213, R249). -/
theorem exec_top_holds {td ta tb op : BitVec 5} {ty : BitVec 3} {bb : BitVec 2} {r : Bool} (hc : c < nCobbles)
    (hi : s.canIssue c = true) (hf : (s.cob c).badFetch = false) (hz : (s.cob c).pz = true)
    (ht : ∃ f ∈ (s.slotOf c).fly, ta.toNat ∈ f.use.outTiles ∨ tb.toNat ∈ f.use.outTiles) :
    exec (.top c td ta tb op ty bb r) s = .next s := by
  change execTop c td ta tb op ty bb r s = _
  refine issue_holds hc hi hf nofun ?_ ?_
  · suffices ∀ t ∈ [ta, tb, td], (BitVec.ofNat 6 t.toNat).toNat < 32 by simpa [PUse.fps] using this
    exact fun t _ => Nat.lt_of_le_of_lt (Nat.le_of_eq (tile_toNat t)) t.isLt
  · obtain ⟨f, hf, ht | ht⟩ := ht
    · exact State.flyBusy_of_tile (t := ta) hz (by simp [PUse.fps]) ⟨f, hf, ht⟩
    · exact State.flyBusy_of_tile (t := tb) hz (by simp [PUse.fps]) ⟨f, hf, ht⟩

/-- TOP reserves pipe steps, so the lanes wake first (R252). -/
theorem exec_top_wakes {td ta tb : BitVec 5} (h : pzReady s c [] { tiles := [ta.toNat, tb.toNat], outTiles := [td.toNat] })
    (ha : (s.slotOf c).asleep = true) : exec (.top c td ta tb 0 1 0 false) s =
      .next (s.modSlot (slotOfBlk (blkOf c)) (fun q => { q with waking := true })) := by
  change execTop c td ta tb 0 1 0 false s = _
  exact pzOp_wakes h rfl rfl ha

/-- PFENCE moves on once nothing is in flight (R216). -/
theorem exec_pfence (h : s.ready c [] [] = true) (hz : (s.cob c).pz = true) :
    exec (.pfence c 0) s = if (s.slotOf c).fly = [] then s.put c (s.cob c) else .next s := by
  refine (issue_ready h).trans ?_
  simp only [hz, Bool.not_true, bne_self_eq_false, Bool.or_self, Bool.false_eq_true, if_false, List.isEmpty_iff]
  split <;> rfl

theorem exec_pfence_illegal (h : s.ready c [] [] = true) (hz : (s.cob c).pz = false) :
    exec (.pfence c 0) s = .next (s.illegal c (wPz 0x2C (0#18 ++ 0#8))) := by
  refine (issue_ready h).trans ?_
  simp [hz]

end PiazzaPlaces

/-! ## The end of a count (R222, R224) -/

/-- A core that is not in WAIT has no WAIT to end (R105). -/
theorem State.settleWait_of_not_waiting {s : State} {c : Nat} (h : (s.cob c).hold ≠ .waitInt) : s.settleWait c = s :=
  if_neg (by simp [h])

/-- PFAULT becoming pending writes the trace and draws from the free choices, nothing else. -/
theorem State.pfaultEdge_writes (s t : State) (c : Nat) : ∃ tr n, s.pfaultEdge t c = { t with trace := tr, freeCtr := n } := by
  unfold State.pfaultEdge
  split
  · exact t.traceFree_writes c .pfault
  · exact ⟨_, _, rfl⟩

/-- The control cobble's flags and the slot's instructions in flight at the end of the `n`th one's count. -/
def State.countEnded (s : State) (sl n : Nat) (f : PFly) : State :=
  (s.modSlot sl (fun q => { q with fly := q.fly.eraseIdx n })).modCob (ctlCobble sl)
    (fun q => { q with pflags := q.pflags ||| f.flags.zeroExtend 64 })

theorem State.countEnded_fly (s : State) (sl n : Nat) (f : PFly) :
    (lget ({} : Slot) (s.countEnded sl n f).slots sl).fly = (lget ({} : Slot) s.slots sl).fly.eraseIdx n :=
  congrArg Slot.fly (s.lget_modSlot sl (fun q => { q with fly := q.fly.eraseIdx n }))

theorem State.countEnded_cob (s : State) (sl n : Nat) (f : PFly) :
    (s.countEnded sl n f).cob (ctlCobble sl) = { s.cob (ctlCobble sl) with
      pflags := (s.cob (ctlCobble sl)).pflags ||| f.flags.zeroExtend 64 } :=
  State.modCob_cob_same _ _ _

theorem State.countEnded_otherCobbles (s : State) (sl n : Nat) (f : PFly) :
    otherCobbles (ctlCobble sl) s (s.countEnded sl n f) :=
  fun d hd => (State.modCob_cob _ _ _ d).trans (if_neg hd)

theorem exec_piazzaCountEnd {s : State} {sl n : Nat} {f : PFly} (hs : sl < 20)
    (hf : (lget ({} : Slot) s.slots sl).fly[n]? = some f) (hw : (s.cob (ctlCobble sl)).hold ≠ .waitInt) :
    ∃ tr m, exec (.piazzaCountEnd sl n) s = .next { s.countEnded sl n f with trace := tr, freeCtr := m } := by
  obtain ⟨tr, m, he⟩ := s.pfaultEdge_writes (s.countEnded sl n f) (ctlCobble sl)
  have hh : (State.cob { s.countEnded sl n f with trace := tr, freeCtr := m } (ctlCobble sl)).hold ≠ .waitInt := by
    change ((s.countEnded sl n f).cob (ctlCobble sl)).hold ≠ .waitInt
    rwa [State.countEnded_cob]
  refine ⟨tr, m, (if_neg (Nat.not_le.2 hs)).trans (congrArg Host.Outcome.next ?_)⟩
  rw [← State.settleWait_of_not_waiting hh, ← he]
  simp only [hf]
  rfl

/-- Settles O29: each clause is the rule of its instruction above, or pzOp's rule outside a control cobble. -/
theorem piazzaIssueFlightAndCountEnd : Obligations.PiazzaIssueFlightAndCountEnd := by
  intro s c k p
  refine ⟨fun h hz => ⟨⟨_, exec_accz_illegal h hz⟩, _, exec_pfence_illegal h hz⟩,
    fun td ta tb op ty h hz => ?_, fun td ts tm ty op h hz => ?_, fun rk ra rb ty h hz => ?_, fun rs1 rs2 h hz => ?_,
    fun h hz hn => exec_accz_holds h hz (.inl hn), fun h hz hm => exec_accz_holds h hz (.inr hm),
    fun td ta tb op ty bb hc hi hf hz ht => exec_top_holds hc hi hf hz ht, fun td ta tb h ha => exec_top_wakes h ha,
    fun h hz => ⟨fun hn => ?_, fun hn => ?_⟩, fun sl n f hs hf hw => ?_⟩
  · change ∃ w, execTop c td ta tb op ty 0 false s = .next (s.trap c 3 w)
    exact ⟨_, pzOp_illegal h (.inl hz)⟩
  · change ∃ w, reduce 0 c td ts tm ty op false false false s = .next (s.trap c 3 w)
    exact ⟨_, pzOp_illegal h (.inl hz)⟩
  · change ∃ w, execMma c rk ra rb ty ty false true s = .next (s.trap c 3 w)
    unfold execMma
    exact ⟨_, pzOp_illegal h (.inl hz)⟩
  · change ∃ w, execVsetl c 0 rs1 rs2 s = .next (s.trap c 3 w)
    exact ⟨_, pzOp_illegal h (.inl hz)⟩
  · rw [exec_pfence h hz, if_pos hn]
  · rw [exec_pfence h hz, if_neg hn]
  · obtain ⟨tr, m, he⟩ := exec_piazzaCountEnd hs hf hw
    exact ⟨_, he, s.countEnded_fly sl n f, s.countEnded_cob sl n f, s.countEnded_otherCobbles sl n f, rfl, rfl, rfl, rfl⟩

/-! ## Settings (R231, R250) -/

section Settings

variable {s : State} {c fn : Nat} {rs1 rs2 : BitVec 6} {body : Nat → Cobble → State → State}

theorem setting_one_runs (h : pzReady s c [rs1] {}) :
    setting fn c 0 rs1 0 true body s = pzNext s c {} (body (slotOfBlk (blkOf c)) (s.cob c) s) :=
  pzOp_runs h rfl (.inl rfl)

theorem setting_two_runs (h : pzReady s c [rs1, rs2] {}) :
    setting fn c 0 rs1 rs2 false body s = pzNext s c {} (body (slotOfBlk (blkOf c)) (s.cob c) s) :=
  pzOp_runs h rfl (.inl rfl)

theorem exec_mmroww (h : pzReady s c [rs1] {}) (w : BitVec 2) :
    exec (.mmroww c 0 rs1 0 w) s = pzNext s c {} (s.setPz c (slotOfBlk (blkOf c)) (fun p =>
      { p with mrow := maskWord p.mrow w.toNat ((s.cob c).int rs1) })) := by
  change execMmroww c 0 rs1 0 w s = _
  exact setting_one_runs h

theorem exec_mmcolw (h : pzReady s c [rs1] {}) (w : BitVec 2) :
    exec (.mmcolw c 0 rs1 0 w) s = pzNext s c {} (s.setPz c (slotOfBlk (blkOf c)) (fun p =>
      { p with mcol := maskWord p.mcol w.toNat ((s.cob c).int rs1) })) := by
  change execMmcolw c 0 rs1 0 w s = _
  exact setting_one_runs h

theorem exec_mscb (h : pzReady s c [rs1] {}) :
    exec (.mscb c 0 rs1 0) s = if ((s.cob c).int rs1).toNat % 8 != 0 then .next (s.trap c 4 ((s.cob c).int rs1))
      else pzNext s c {} (s.setPz c (slotOfBlk (blkOf c)) (fun p => { p with mscb := (s.cob c).int rs1 })) := by
  change execMscb c 0 rs1 0 s = _
  exact (setting_one_runs h).trans (pzNext_trap_else ..)

theorem exec_mmrowr (h : pzReady s c [rs1, rs2] {}) :
    exec (.mmrowr c 0 rs1 rs2) s = if badRange ((s.cob c).int rs1) ((s.cob c).int rs2) then
        .next (s.illegal c (wSet 0x28 0 rs1 rs2))
      else pzNext s c {} (s.setPz c (slotOfBlk (blkOf c)) (fun p =>
        { p with mrow := maskRange ((s.cob c).int rs1).toNat ((s.cob c).int rs2).toNat })) := by
  change execMmrowr c 0 rs1 rs2 s = _
  exact (setting_two_runs h).trans (pzNext_trap_else ..)

theorem exec_mmcolr (h : pzReady s c [rs1, rs2] {}) :
    exec (.mmcolr c 0 rs1 rs2) s = if badRange ((s.cob c).int rs1) ((s.cob c).int rs2) then
        .next (s.illegal c (wSet 0x29 0 rs1 rs2))
      else pzNext s c {} (s.setPz c (slotOfBlk (blkOf c)) (fun p =>
        { p with mcol := maskRange ((s.cob c).int rs1).toNat ((s.cob c).int rs2).toNat })) := by
  change execMmcolr c 0 rs1 rs2 s = _
  exact (setting_two_runs h).trans (pzNext_trap_else ..)

theorem exec_vsetl (h : pzReady s c [rs1, rs2] {}) :
    exec (.vsetl c 0 rs1 rs2) s = if 64 < ((s.cob c).int rs1).toNat || 512 < ((s.cob c).int rs2).toNat then
        .next (s.illegal c (wSetl 0 rs1 rs2))
      else pzNext s c {} ((s.modSlot (slotOfBlk (blkOf c)) (fun p =>
        { p with vlr := ((s.cob c).int rs1).toNat, vlc := ((s.cob c).int rs2).toNat })).inFlight c 1 0) := by
  change execVsetl c 0 rs1 rs2 s = _
  exact (pzOp_runs h rfl (.inl rfl)).trans (pzNext_trap_else ..)

theorem badRange_iff {a b : W64} : badRange a b = true ↔ b.toNat < a.toNat ∨ 256 < b.toNat := by
  simp [badRange]

end Settings

/-! ## The entry in flight (R214, R222) -/

theorem State.tagFly_cob (t : State) (sl n : Nat) (u : PUse) (reg : Option Nat) (c : Nat) :
    (t.tagFly sl n u reg).cob c = t.cob c := by
  unfold State.tagFly
  split <;> rfl

theorem State.tagFly_mem (t : State) (sl n : Nat) (u : PUse) (reg : Option Nat) : (t.tagFly sl n u reg).mem = t.mem := by
  unfold State.tagFly
  split <;> rfl

theorem State.inFlight_cob (t : State) (c e : Nat) (fl : BitVec 11) : (t.inFlight c e fl).cob c = (t.cob c).adv :=
  t.setCob_cob_same c _

theorem State.inFlight_slot (t : State) (c e : Nat) (fl : BitVec 11) :
    lget ({} : Slot) (t.inFlight c e fl).slots (slotOfBlk (blkOf c)) =
      (let p := lget ({} : Slot) t.slots (slotOfBlk (blkOf c))
       { p with fly := p.fly ++ [{ engine := e, flags := fl }] }) :=
  (t.retire c (t.cob c)).lget_modSlot _ _

/-- The last instruction in flight is kept with what it uses. -/
theorem State.tagFly_slot {t : State} {sl : Nat} {p : Slot} {f : PFly} (u : PUse) (reg : Option Nat)
    (h : lget ({} : Slot) t.slots sl = { p with fly := p.fly ++ [f] }) :
    lget ({} : Slot) (t.tagFly sl p.fly.length u reg).slots sl =
      { p with fly := p.fly ++ [{ f with use := u, reg := reg }] } := by
  have hl : (p.fly ++ [f])[p.fly.length]? = some f := by simp
  simp only [State.tagFly, h, hl, State.lget_modSlot]
  simp

/-! ## Lane power and the mode write (R206, R252) -/

section Slots

variable {s : State} {n : Nat} (hn : n < 20)
include hn

theorem exec_laneSleep :
    exec (.laneSleep n) s = .next (s.modSlot n (fun p => if p.awake then p else { p with asleep := true })) :=
  if_pos hn

theorem exec_laneWakeDone (hw : (lget ({} : Slot) s.slots n).waking = true) :
    exec (.laneWakeDone n) s = .next (s.modSlot n (fun p => { p with asleep := false, waking := false })) :=
  (if_pos hn).trans (congrArg Host.Outcome.next (State.modSlot_congr (if_pos hw)))

theorem exec_pvctlWrite (x : Bool) : exec (.pvctlWrite n x) s = .next (s.modSlot n (fun p => p.pvctl x)) :=
  if_pos hn

theorem exec_pzcfgModeWrite (v : BitVec 32) :
    exec (.pzcfgModeWrite n v) s = .next (s.modSlot n (fun p =>
      { p with reqPz := v.getLsbD 31, lmb := if v.toNat % 16 = 0 then p.lmb else v.toNat % 16 })) :=
  if_pos hn

end Slots

/-- Settles O30: each clause is the rule of its command above; the entry in flight by State.inFlight_slot and
State.tagFly_slot. -/
theorem piazzaSettings : Obligations.PiazzaSettings := by
  intro s c rs1 rs2 k sl set
  refine ⟨fun h => ⟨fun w => ⟨exec_mmroww h w, exec_mmcolw h w⟩, fun ha => ?_, fun ha => ?_⟩,
    fun h => ⟨fun ha hb => ?_, fun hx => ?_, fun ha hb => ?_, fun hx => ?_⟩, fun e f hf => ⟨?_, ?_, ?_⟩,
    fun n hn => ⟨exec_laneSleep hn, exec_laneWakeDone hn, exec_pvctlWrite hn, exec_pzcfgModeWrite hn⟩⟩
  · rw [exec_mscb h, if_neg (by simpa using ha)]; rfl
  · rw [exec_mscb h, if_pos (by simpa using ha)]
  · have hb : ¬badRange (k.int rs1) (k.int rs2) = true := by rw [badRange_iff]; omega
    rw [exec_mmrowr h, exec_mmcolr h, if_neg hb, if_neg hb]
    exact ⟨rfl, rfl⟩
  · have hb := badRange_iff.2 hx
    rw [exec_mmrowr h, exec_mmcolr h, if_pos hb, if_pos hb]
    exact ⟨_, _, rfl, rfl⟩
  · rw [exec_vsetl h, if_neg (by simpa using ⟨ha, hb⟩)]
  · rw [exec_vsetl h, if_pos (by simpa using hx)]
    exact ⟨_, rfl⟩
  · rw [State.tagFly_cob, State.inFlight_cob]; rfl
  · exact State.tagFly_mem _ _ _ _ _
  · rw [← hf]
    refine State.tagFly_slot (p := f (s.slotOf c)) (f := { engine := e }) {} none ((State.inFlight_slot _ c e 0).trans ?_)
    rw [State.lget_modSlot]
    rfl

end Sys2Proof.Machine


/-! # A refused injection (13_on_die_network.md) -/

namespace Sys2Proof.Machine

/-! ## Injection (R315, R316, R321) -/

/-- The waiting packet `p` leaves the network interface of block `b`, and its requester goes on. -/
def State.leavesNi (s : State) (b key : Nat) (p : Packet) : State :=
  (s.setBlk b { s.blk b with niq := (s.blk b).niq.erase p, niLast := key }).injected b p

/-- The candidate that wins at the network interface of a block. -/
def Block.niWinner (k : Block) : Option Cand :=
  pick k.niLast 262 ((niHeads [] k.niq).filter (fun c => !inRect k.partrect c.2.dst || k.localRoom c.2))

theorem exec_packetInjection_refused {s : State} {b key : Nat} {p : Packet} (hb : s.staged b)
    (h : (s.blk b).niWinner = some (key, p)) (hr : inRect (s.blk b).partrect p.dst = false) :
    exec (.packetInjection b) s = .next ((s.leavesNi b key p).refuseInjection b p) := by
  unfold Block.niWinner at h
  change execPacketInjection b s = _
  rw [execPacketInjection, onBlk_staged hb]
  simp only [h, hr, Bool.false_eq_true, if_false, State.leavesNi]

theorem State.logBlk_frame (s : State) (b e : Nat) (d : List Nat) : RegisterFrame s (s.logBlk b e d) := by
  obtain ⟨l, h⟩ := s.logEvent_writes 2 b e (s.partOfBlk b) d
  rw [State.logBlk, h]
  exact .of_eq rfl ⟨rfl, rfl, rfl, rfl⟩ rfl rfl

/-- The refusal of an access itself, the log entry and the answer, leaves every register. -/
theorem State.refuseInjection_frame_of_acc {p : Packet} {a : Acc} (hp : p.pay = .acc a) (s : State) (b : Nat) :
    RegisterFrame s (s.refuseInjection b p) := by
  rw [State.refuseInjection, hp]
  exact (s.logBlk_frame ..).trans (State.deliver_frame ..)

theorem Cobble.admitted_pc {k : Cobble} {l : Option PendLoad} {st : Option PendStore} (h : k.hold = .adm l st) :
    k.admitted.pc = k.pc + 4 := by
  rw [Cobble.admitted, h]
  rfl

/-- A cobble that holds issue for its packet moves past its load or store as the packet leaves. -/
theorem State.leavesNi_pc {s : State} {b key : Nat} {p : Packet} {a : Acc} {l : Option PendLoad} {st : Option PendStore}
    (hp : p.pay = .acc a) (hc : p.sport < 256) (hh : (s.cob (b * 256 + p.sport)).hold = .adm l st) :
    ((s.leavesNi b key p).cob (b * 256 + p.sport)).pc = (s.cob (b * 256 + p.sport)).pc + 4 := by
  rw [State.leavesNi, State.injected, hp]
  dsimp only
  rw [if_pos hc, State.modCob_cob_same]
  exact Cobble.admitted_pc hh

/-- A refused load or store has issued: its cobble sees the refusal by the answer (R95, R315), with the program counter past
the instruction. -/
theorem runs_packetInjection_refused_pc {s : State} {b key : Nat} {p : Packet} {a : Acc} {l : Option PendLoad}
    {st : Option PendStore} (hb : s.staged b) (h : (s.blk b).niWinner = some (key, p))
    (hr : inRect (s.blk b).partrect p.dst = false) (hp : p.pay = .acc a) (hc : p.sport < 256)
    (hh : (s.cob (b * 256 + p.sport)).hold = .adm l st) :
    runs (.packetInjection b) s (fun t => (t.cob (b * 256 + p.sport)).pc = (s.cob (b * 256 + p.sport)).pc + 4) := by
  refine ⟨_, exec_packetInjection_refused hb h hr, ?_⟩
  obtain ⟨-, -, hpc⟩ := ((s.leavesNi b key p).refuseInjection_frame_of_acc hp b).registers (b * 256 + p.sport)
  rw [hpc, State.leavesNi_pc hp hc hh]

theorem runs_both {i : Instr} {s : State} {f g : State → Prop} (hf : runs i s f) (hg : runs i s g) :
    ∃ t, f t ∧ g t := by
  obtain ⟨t, ht, hft⟩ := hf
  obtain ⟨u, hu, hgu⟩ := hg
  rw [ht] at hu
  cases hu
  exact ⟨t, hft, hgu⟩

/-! ## The counterexample -/

/-- A store of cobble 0 to the store of block 1, waiting at the network interface of block 0. -/
def waitingStore : Packet :=
  { cls := 0, level := 2, nfl := 0, dst := 1, src := 0, sport := 0,
    pay := .acc { kind := .wr, space := 0, off := 0, size := 1, data := [7], mask := 1 } }

/-- Cobble 0 holds issue until the network interface admits its store; PARTRECT is not valid, so nothing is injected. -/
def heldStore : State :=
  { State.reset with
    cobs := [(0, { run := .running, codelim := 4096, hold := .adm none (some { tag := 0, addr := 0x0280000800000000#64 }) })]
    blks := [(0, { fence := false, niq := [waitingStore] })] }

theorem heldStore_staged : heldStore.staged 0 := ⟨by decide, by decide⟩

theorem heldStore_niWinner : (heldStore.blk 0).niWinner = some (0, waitingStore) := by decide

theorem heldStore_notInRect : inRect (heldStore.blk 0).partrect waitingStore.dst = false := by decide

/-- Refutes O50: the clause on a packet outside the partition rectangle says that PACKET_INJECTION leaves every program
counter. In `heldStore` cobble 0 holds issue for a store whose packet is refused, and the command moves its program counter
past the store. -/
theorem not_meshMovesPacketsAlongTheirRoute : ¬ Obligations.MeshMovesPacketsAlongTheirRoute := by
  rintro ⟨-, -, h⟩
  obtain ⟨hinj, -⟩ := h heldStore 0 heldStore_staged
  have hstill := (hinj 0 waitingStore heldStore_niWinner).2 heldStore_notInRect
  have hmoved := runs_packetInjection_refused_pc heldStore_staged heldStore_niWinner heldStore_notInRect rfl (by decide) rfl
  obtain ⟨t, ⟨⟨-, hregs⟩, -⟩, hpc⟩ := runs_both hstill hmoved
  obtain ⟨-, -, hsame⟩ := hregs (0 * 256 + waitingStore.sport)
  rw [hsame] at hpc
  exact absurd hpc (by decide)

end Sys2Proof.Machine
